-- ==== Sys2Proof/Word.lean ====
section
/-! DEFINITION. The field widths of 00_scope.md rule R9: u4, u7, u8, u14, u16 and the 32-bit UMP word. -/

namespace Sys2Proof

/-- A nibble: a group, a channel, an opcode or a status field. -/
abbrev U4 := BitVec 4

/-- A 7-bit value, 0..127 (R9). -/
abbrev U7 := BitVec 7

/-- A MIDI byte, bit 7 most significant (R9). -/
abbrev Byte := BitVec 8

/-- A 14-bit value. -/
abbrev U14 := BitVec 14

/-- A 16-bit value. -/
abbrev U16 := BitVec 16

/-- A UMP word, bit 31 most significant (R9, R64). -/
abbrev Word := BitVec 32

end Sys2Proof
end

