-- ==== Sys2Proof/Config.lean ====
section
/-! DEFINITION. The parameters of 00_scope.md rule R7. SYSEX_MAX is the only one the spec leaves open; every other
quantity is fixed (R8). No case of the spec leaves a value free (93_implementation_defined.md Part 1), so this file
holds no opaque constant. -/

namespace Sys2Proof

/-- SYSEX_MAX (R7, D14): `INF`, or a natural number of bytes. That the number is at least 1 is part of the state
invariant (Sys2Proof/Safety.lean). -/
inductive SysexMax where
  | inf
  | bytes (n : Nat)
  deriving DecidableEq, Repr

/-- CFG after power-on: 0x0000_0035 (R7, R40, R45). -/
def Config.cfgReset : Word := 0x00000035#32

/-- The bits of CFG that CONFIG writes: 5:0 and 11:8 (R41, R351). -/
def Config.cfgMask : Word := 0x00000F3F#32

/-- The value of SYSEX_MAX in State.reset. DESIGN CHOICE (log entry 1), unsafe: R7 leaves it open; INF is the value
95_test_vectors.md takes unless it says otherwise. -/
def Config.sysexMaxReset : SysexMax := .inf

end Sys2Proof
end

