-- ==== Sys2Proof/Syntax.lean ====
section
/-! DEFINITION. The block's instructions: one constructor per row of spec/opcode_table.json, in the table's order.
Four formats (30_encoding.md R128): transactions (TXN), bytes of the MIDI-1 stream (BYTE8), UMP packets, and the
controllers the RA acts on (CC7). A UMP row keeps every bit of its packet: reserved bits are ignored by the decoder
(R91), but a diagnostic carries the whole first word (R362). In a UMP row `g` is the group w0[27:24], `ch` w0[19:16],
`b1` w0[15:8], `b2` w0[7:0] (R96 to R102). -/

namespace Sys2Proof

/-- One presentation on the input port (R80): tag[2:0], len[1:0], data[127:0]. -/
structure Txn where
  tag  : BitVec 3
  len  : BitVec 2
  data : BitVec 128
  deriving DecidableEq, Repr

/-- The instructions, one constructor per row of the opcode table. -/
inductive Instr where
  -- transactions, R80
  | byte (b : Byte)
  | word (w : Word)
  | packet (w0 : Word) (rest : List Word)
  | reset
  | config (v : Word)
  | tagRsvd5
  | tagRsvd6
  | tagRsvd7
  -- data bytes, R82, selected by MP state (R141 to R145)
  | dataRs (v : U7)
  | dataOrphan (v : U7)
  | dataData (v : U7)
  | dataSysex (v : U7)
  | dataSxdiscard (v : U7)
  -- channel status bytes, R84
  | noteoff (ch : U4)
  | noteon (ch : U4)
  | polypress (ch : U4)
  | cc (ch : U4)
  | progchg (ch : U4)
  | chanpress (ch : U4)
  | pitchbend (ch : U4)
  -- system bytes, R85
  | sysexStart
  | mtcQf
  | songpos
  | songsel
  | undefF4
  | busselF5
  | tunereq
  | eox
  | clock
  | undefF9
  | rtStart
  | rtContinue
  | rtStop
  | undefFd
  | actsense
  | sysreset
  -- MT 0x0, R96
  | u0Noop (g x : U4) (time : U16)
  | u0Jrclock (g x : U4) (time : U16)
  | u0Jrts (g x : U4) (time : U16)
  | u0Other (g st x : U4) (time : U16)
  -- MT 0x1, R97
  | u1MtcQf (g : U4) (b1 b2 : Byte)
  | u1Songpos (g : U4) (b1 b2 : Byte)
  | u1Songsel (g : U4) (b1 b2 : Byte)
  | u1Bussel (g : U4) (b1 b2 : Byte)
  | u1Tunereq (g : U4) (b1 b2 : Byte)
  | u1Clock (g : U4) (b1 b2 : Byte)
  | u1Start (g : U4) (b1 b2 : Byte)
  | u1Continue (g : U4) (b1 b2 : Byte)
  | u1Stop (g : U4) (b1 b2 : Byte)
  | u1Actsense (g : U4) (b1 b2 : Byte)
  | u1Sysreset (g : U4) (b1 b2 : Byte)
  | u1Other (g : U4) (status : Byte) (b1 b2 : Byte)
  -- MT 0x2, R98
  | u2Noteoff (g ch : U4) (b1 b2 : Byte)
  | u2Noteon (g ch : U4) (b1 b2 : Byte)
  | u2Polypress (g ch : U4) (b1 b2 : Byte)
  | u2Cc (g ch : U4) (b1 b2 : Byte)
  | u2Progchg (g ch : U4) (b1 b2 : Byte)
  | u2Chanpress (g ch : U4) (b1 b2 : Byte)
  | u2Pitchbend (g ch : U4) (b1 b2 : Byte)
  | u2Other07 (g : U4) (op : BitVec 3) (ch : U4) (b1 b2 : Byte)
  | u2OtherF (g ch : U4) (b1 b2 : Byte)
  -- MT 0x3, R99; n is numBytes
  | u3Complete (g n : U4) (b1 b2 : Byte) (w1 : Word)
  | u3Start (g n : U4) (b1 b2 : Byte) (w1 : Word)
  | u3Continue (g n : U4) (b1 b2 : Byte) (w1 : Word)
  | u3End (g n : U4) (b1 b2 : Byte) (w1 : Word)
  | u3Other (g st n : U4) (b1 b2 : Byte) (w1 : Word)
  -- MT 0x4, R100, R101
  | u4Pnrc (g ch : U4) (b1 b2 : Byte) (w1 : Word)
  | u4Pnac (g ch : U4) (b1 b2 : Byte) (w1 : Word)
  | u4Rc (g ch : U4) (b1 b2 : Byte) (w1 : Word)
  | u4Ac (g ch : U4) (b1 b2 : Byte) (w1 : Word)
  | u4Rrc (g ch : U4) (b1 b2 : Byte) (w1 : Word)
  | u4Rac (g ch : U4) (b1 b2 : Byte) (w1 : Word)
  | u4Pnpb (g ch : U4) (b1 b2 : Byte) (w1 : Word)
  | u4Op7 (g ch : U4) (b1 b2 : Byte) (w1 : Word)
  | u4Noteoff (g ch : U4) (b1 b2 : Byte) (w1 : Word)
  | u4Noteon (g ch : U4) (b1 b2 : Byte) (w1 : Word)
  | u4Polypress (g ch : U4) (b1 b2 : Byte) (w1 : Word)
  | u4Cc (g ch : U4) (b1 b2 : Byte) (w1 : Word)
  | u4Progchg (g ch : U4) (b1 b2 : Byte) (w1 : Word)
  | u4Chanpress (g ch : U4) (b1 b2 : Byte) (w1 : Word)
  | u4Pitchbend (g ch : U4) (b1 b2 : Byte) (w1 : Word)
  | u4Pnmgmt (g ch : U4) (b1 b2 : Byte) (w1 : Word)
  -- MT 0x5, R102; n is numBytes, b1 the stream identifier, b2 payload byte 1
  | u5Complete (g n : U4) (b1 b2 : Byte) (w1 w2 w3 : Word)
  | u5Start (g n : U4) (b1 b2 : Byte) (w1 w2 w3 : Word)
  | u5Continue (g n : U4) (b1 b2 : Byte) (w1 w2 w3 : Word)
  | u5End (g n : U4) (b1 b2 : Byte) (w1 w2 w3 : Word)
  | u5Other (g st n : U4) (b1 b2 : Byte) (w1 w2 w3 : Word)
  -- MT 0x6 to 0xF, R104; r is w0[23:0]
  | u6 (g : U4) (r : BitVec 24)
  | u7 (g : U4) (r : BitVec 24)
  | u8 (g : U4) (r : BitVec 24) (w1 : Word)
  | u9 (g : U4) (r : BitVec 24) (w1 : Word)
  | uA (g : U4) (r : BitVec 24) (w1 : Word)
  | uB (g : U4) (r : BitVec 24) (w1 w2 : Word)
  | uC (g : U4) (r : BitVec 24) (w1 w2 : Word)
  | uD (g : U4) (r : BitVec 24) (w1 w2 w3 : Word)
  | uE (g : U4) (r : BitVec 24) (w1 w2 w3 : Word)
  | uF (g : U4) (r : BitVec 24) (w1 w2 w3 : Word)
  -- the RA's controllers, R121; the operands are those of the ControlChange1 event
  | raCc101 (g ch : U4) (v : U7)
  | raCc100 (g ch : U4) (v : U7)
  | raCc99 (g ch : U4) (v : U7)
  | raCc98 (g ch : U4) (v : U7)
  | raCc6 (g ch : U4) (v : U7)
  | raCc38 (g ch : U4) (v : U7)
  | raCc96 (g ch : U4) (v : U7)
  | raCc97 (g ch : U4) (v : U7)
  | raCc121 (g ch : U4) (v : U7)
  | raPass (g ch : U4) (ctrl v : U7)
  deriving DecidableEq, Repr

/-- The five rows a data byte can be (R141 to R145). The MP state selects one; the byte's bits do not. -/
inductive DataRow where
  | rs
  | orphan
  | data
  | sysex
  | sxdiscard
  deriving DecidableEq, Repr

/-- The bits of one instruction, in the four formats of the opcode table. -/
inductive Code where
  /-- a transaction on the port (R80) -/
  | txn (t : Txn)
  /-- one byte of the MIDI-1 stream (R82) -/
  | byte8 (b : Byte)
  /-- one UMP packet, word 0 and the words after it (R64, R90) -/
  | ump (w0 : Word) (rest : List Word)
  /-- a ControlChange1 event as the RA reads it (R120) -/
  | cc7 (g ch : U4) (ctrl value : U7)
  deriving DecidableEq, Repr

/-- Why a code is no instruction. -/
inductive DecodeError where
  /-- a packet whose number of words is not that of its message type (R81, R202) -/
  | length
  deriving DecidableEq, Repr

end Sys2Proof
end

