-- ==== Sys2Proof/WellFormed.lean ====
section
/-! DEFINITION. Which terms of Instr stand for words of the opcode table. Most rows are well-formed for every operand;
the checks are those of the rows the table marks `fallback`, and the packet's length (R63, R80). -/

namespace Sys2Proof

/-- The status bytes MT 0x1 has a row of its own for (R226). -/
def u1Statuses : List Byte :=
  [0xF1#8, 0xF2#8, 0xF3#8, 0xF5#8, 0xF6#8, 0xF8#8, 0xFA#8, 0xFB#8, 0xFC#8, 0xFE#8, 0xFF#8]

/-- The controllers the RA has a row of its own for (R121, R323). -/
def raControllers : List U7 :=
  [101#7, 100#7, 99#7, 98#7, 6#7, 38#7, 96#7, 97#7, 121#7]

/-- A packet has 1 to 4 words (R63); a fallback row has no field value that another row of its format matches
(R128, R224, R238, R275, R285, R323). -/
def Instr.wellFormed : Instr → Bool
  | .packet _ rest => decide (rest.length ≤ 3)
  | .u0Other _ st _ _ => decide (3#4 ≤ st)
  | .u1Other _ status _ _ => !u1Statuses.contains status
  | .u3Other _ st _ _ _ _ => decide (4#4 ≤ st)
  | .u5Other _ st _ _ _ _ _ _ => decide (4#4 ≤ st)
  | .raPass _ _ ctrl _ => !raControllers.contains ctrl
  | _ => true

/-- The row of a data byte, for the five DATA instructions. -/
def Instr.dataRow : Instr → Option DataRow
  | .dataRs _ => some .rs
  | .dataOrphan _ => some .orphan
  | .dataData _ => some .data
  | .dataSysex _ => some .sysex
  | .dataSxdiscard _ => some .sxdiscard
  | _ => none

end Sys2Proof
end

