-- ==== Sys2Proof/Decode.lean ====
section
/-! DEFINITION. Bits to instructions and back: the four formats of 30_encoding.md and spec/opcode_table.json. The
decoder is total: a transaction, a byte and a controller always are a row (R80, R82, R121), and a packet is one unless
its length disagrees with its message type (R81). The encoder is written from the same tables. -/

namespace Sys2Proof

/-! ### Fields of a UMP word (R90, R96 to R102) -/

/-- MT, w0[31:28]. -/
def mtOf (w0 : Word) : U4 := w0.extractLsb' 28 4

/-- The group, w0[27:24]. -/
def grpOf (w0 : Word) : U4 := w0.extractLsb' 24 4

/-- The status or opcode nibble, w0[23:20]. -/
def stOf (w0 : Word) : U4 := w0.extractLsb' 20 4

/-- The channel or numBytes nibble, w0[19:16]. -/
def chOf (w0 : Word) : U4 := w0.extractLsb' 16 4

/-- The status byte of MT 0x1, w0[23:16]. -/
def statusOf (w0 : Word) : Byte := w0.extractLsb' 16 8

/-- w0[15:8]. -/
def b1Of (w0 : Word) : Byte := w0.extractLsb' 8 8

/-- w0[7:0]. -/
def b2Of (w0 : Word) : Byte := w0.extractLsb' 0 8

/-- w0[15:0]. -/
def timeOf (w0 : Word) : U16 := w0.extractLsb' 0 16

/-- w0[23:0], the bits MT 0x6 to 0xF leave undecoded (R104). -/
def lowOf (w0 : Word) : BitVec 24 := w0.extractLsb' 0 24

/-- `WC(mt)`, the word count of each message type (R95, C1). -/
def wc (mt : U4) : Nat :=
  match mt.toNat with
  | 0x0 | 0x1 | 0x2 | 0x6 | 0x7 => 1
  | 0x3 | 0x4 | 0x8 | 0x9 | 0xA => 2
  | 0xB | 0xC => 3
  | _ => 4

/-! ### The rows of a UMP packet -/

/-- MT 0x0 by status (R96, R221 to R224). -/
def decodeU0 (w0 : Word) : Instr :=
  match (stOf w0).toNat with
  | 0x0 => .u0Noop (grpOf w0) (chOf w0) (timeOf w0)
  | 0x1 => .u0Jrclock (grpOf w0) (chOf w0) (timeOf w0)
  | 0x2 => .u0Jrts (grpOf w0) (chOf w0) (timeOf w0)
  | _ => .u0Other (grpOf w0) (stOf w0) (chOf w0) (timeOf w0)

/-- MT 0x1 by status byte (R97, R226). -/
def decodeU1 (w0 : Word) : Instr :=
  match (statusOf w0).toNat with
  | 0xF1 => .u1MtcQf (grpOf w0) (b1Of w0) (b2Of w0)
  | 0xF2 => .u1Songpos (grpOf w0) (b1Of w0) (b2Of w0)
  | 0xF3 => .u1Songsel (grpOf w0) (b1Of w0) (b2Of w0)
  | 0xF5 => .u1Bussel (grpOf w0) (b1Of w0) (b2Of w0)
  | 0xF6 => .u1Tunereq (grpOf w0) (b1Of w0) (b2Of w0)
  | 0xF8 => .u1Clock (grpOf w0) (b1Of w0) (b2Of w0)
  | 0xFA => .u1Start (grpOf w0) (b1Of w0) (b2Of w0)
  | 0xFB => .u1Continue (grpOf w0) (b1Of w0) (b2Of w0)
  | 0xFC => .u1Stop (grpOf w0) (b1Of w0) (b2Of w0)
  | 0xFE => .u1Actsense (grpOf w0) (b1Of w0) (b2Of w0)
  | 0xFF => .u1Sysreset (grpOf w0) (b1Of w0) (b2Of w0)
  | _ => .u1Other (grpOf w0) (statusOf w0) (b1Of w0) (b2Of w0)

/-- MT 0x2 by opcode (R98, R240). -/
def decodeU2 (w0 : Word) : Instr :=
  match (stOf w0).toNat with
  | 0x8 => .u2Noteoff (grpOf w0) (chOf w0) (b1Of w0) (b2Of w0)
  | 0x9 => .u2Noteon (grpOf w0) (chOf w0) (b1Of w0) (b2Of w0)
  | 0xA => .u2Polypress (grpOf w0) (chOf w0) (b1Of w0) (b2Of w0)
  | 0xB => .u2Cc (grpOf w0) (chOf w0) (b1Of w0) (b2Of w0)
  | 0xC => .u2Progchg (grpOf w0) (chOf w0) (b1Of w0) (b2Of w0)
  | 0xD => .u2Chanpress (grpOf w0) (chOf w0) (b1Of w0) (b2Of w0)
  | 0xE => .u2Pitchbend (grpOf w0) (chOf w0) (b1Of w0) (b2Of w0)
  | 0xF => .u2OtherF (grpOf w0) (chOf w0) (b1Of w0) (b2Of w0)
  | _ => .u2Other07 (grpOf w0) (w0.extractLsb' 20 3) (chOf w0) (b1Of w0) (b2Of w0)

/-- MT 0x3 by status (R99, R103: all four bits of the status, C2). -/
def decodeU3 (w0 w1 : Word) : Instr :=
  match (stOf w0).toNat with
  | 0x0 => .u3Complete (grpOf w0) (chOf w0) (b1Of w0) (b2Of w0) w1
  | 0x1 => .u3Start (grpOf w0) (chOf w0) (b1Of w0) (b2Of w0) w1
  | 0x2 => .u3Continue (grpOf w0) (chOf w0) (b1Of w0) (b2Of w0) w1
  | 0x3 => .u3End (grpOf w0) (chOf w0) (b1Of w0) (b2Of w0) w1
  | _ => .u3Other (grpOf w0) (stOf w0) (chOf w0) (b1Of w0) (b2Of w0) w1

/-- MT 0x4 by opcode (R100, R101, R250). -/
def decodeU4 (w0 w1 : Word) : Instr :=
  match (stOf w0).toNat with
  | 0x0 => .u4Pnrc (grpOf w0) (chOf w0) (b1Of w0) (b2Of w0) w1
  | 0x1 => .u4Pnac (grpOf w0) (chOf w0) (b1Of w0) (b2Of w0) w1
  | 0x2 => .u4Rc (grpOf w0) (chOf w0) (b1Of w0) (b2Of w0) w1
  | 0x3 => .u4Ac (grpOf w0) (chOf w0) (b1Of w0) (b2Of w0) w1
  | 0x4 => .u4Rrc (grpOf w0) (chOf w0) (b1Of w0) (b2Of w0) w1
  | 0x5 => .u4Rac (grpOf w0) (chOf w0) (b1Of w0) (b2Of w0) w1
  | 0x6 => .u4Pnpb (grpOf w0) (chOf w0) (b1Of w0) (b2Of w0) w1
  | 0x7 => .u4Op7 (grpOf w0) (chOf w0) (b1Of w0) (b2Of w0) w1
  | 0x8 => .u4Noteoff (grpOf w0) (chOf w0) (b1Of w0) (b2Of w0) w1
  | 0x9 => .u4Noteon (grpOf w0) (chOf w0) (b1Of w0) (b2Of w0) w1
  | 0xA => .u4Polypress (grpOf w0) (chOf w0) (b1Of w0) (b2Of w0) w1
  | 0xB => .u4Cc (grpOf w0) (chOf w0) (b1Of w0) (b2Of w0) w1
  | 0xC => .u4Progchg (grpOf w0) (chOf w0) (b1Of w0) (b2Of w0) w1
  | 0xD => .u4Chanpress (grpOf w0) (chOf w0) (b1Of w0) (b2Of w0) w1
  | 0xE => .u4Pitchbend (grpOf w0) (chOf w0) (b1Of w0) (b2Of w0) w1
  | _ => .u4Pnmgmt (grpOf w0) (chOf w0) (b1Of w0) (b2Of w0) w1

/-- MT 0x5 by status (R102, R103). -/
def decodeU5 (w0 w1 w2 w3 : Word) : Instr :=
  match (stOf w0).toNat with
  | 0x0 => .u5Complete (grpOf w0) (chOf w0) (b1Of w0) (b2Of w0) w1 w2 w3
  | 0x1 => .u5Start (grpOf w0) (chOf w0) (b1Of w0) (b2Of w0) w1 w2 w3
  | 0x2 => .u5Continue (grpOf w0) (chOf w0) (b1Of w0) (b2Of w0) w1 w2 w3
  | 0x3 => .u5End (grpOf w0) (chOf w0) (b1Of w0) (b2Of w0) w1 w2 w3
  | _ => .u5Other (grpOf w0) (stOf w0) (chOf w0) (b1Of w0) (b2Of w0) w1 w2 w3

/-- The row of a packet of the right length, by message type (R95, R204). Words a message type does not have are not
looked at. -/
def umpRow (w0 w1 w2 w3 : Word) : Instr :=
  match (mtOf w0).toNat with
  | 0x0 => decodeU0 w0
  | 0x1 => decodeU1 w0
  | 0x2 => decodeU2 w0
  | 0x3 => decodeU3 w0 w1
  | 0x4 => decodeU4 w0 w1
  | 0x5 => decodeU5 w0 w1 w2 w3
  | 0x6 => .u6 (grpOf w0) (lowOf w0)
  | 0x7 => .u7 (grpOf w0) (lowOf w0)
  | 0x8 => .u8 (grpOf w0) (lowOf w0) w1
  | 0x9 => .u9 (grpOf w0) (lowOf w0) w1
  | 0xA => .uA (grpOf w0) (lowOf w0) w1
  | 0xB => .uB (grpOf w0) (lowOf w0) w1 w2
  | 0xC => .uC (grpOf w0) (lowOf w0) w1 w2
  | 0xD => .uD (grpOf w0) (lowOf w0) w1 w2 w3
  | 0xE => .uE (grpOf w0) (lowOf w0) w1 w2 w3
  | _ => .uF (grpOf w0) (lowOf w0) w1 w2 w3

/-- Word i of a packet after word 0; 0 where the packet has no such word. -/
def wordAt (rest : List Word) (i : Nat) : Word := rest.getD i 0#32

/-- A packet as an instruction; refused by name when its length is not that of its message type (R81, R95). -/
def decodeUmp (w0 : Word) (rest : List Word) : Except DecodeError Instr :=
  if rest.length + 1 = wc (mtOf w0) then
    .ok (umpRow w0 (wordAt rest 0) (wordAt rest 1) (wordAt rest 2))
  else .error .length

/-! ### The rows of a byte -/

/-- The data-byte row that `sel` names (R141 to R145). -/
def decodeData (sel : DataRow) (v : U7) : Instr :=
  match sel with
  | .rs => .dataRs v
  | .orphan => .dataOrphan v
  | .data => .dataData v
  | .sysex => .dataSysex v
  | .sxdiscard => .dataSxdiscard v

/-- The system byte 0xF0 + n (R85). -/
def decodeSystem (n : U4) : Instr :=
  match n.toNat with
  | 0x0 => .sysexStart
  | 0x1 => .mtcQf
  | 0x2 => .songpos
  | 0x3 => .songsel
  | 0x4 => .undefF4
  | 0x5 => .busselF5
  | 0x6 => .tunereq
  | 0x7 => .eox
  | 0x8 => .clock
  | 0x9 => .undefF9
  | 0xA => .rtStart
  | 0xB => .rtContinue
  | 0xC => .rtStop
  | 0xD => .undefFd
  | 0xE => .actsense
  | _ => .sysreset

/-- A byte of the MIDI-1 stream (R82, R83, R84); `sel` is the row the MP state selects for a data byte. -/
def decodeByte (sel : DataRow) (b : Byte) : Instr :=
  match (b.extractLsb' 4 4).toNat with
  | 0x8 => .noteoff (b.extractLsb' 0 4)
  | 0x9 => .noteon (b.extractLsb' 0 4)
  | 0xA => .polypress (b.extractLsb' 0 4)
  | 0xB => .cc (b.extractLsb' 0 4)
  | 0xC => .progchg (b.extractLsb' 0 4)
  | 0xD => .chanpress (b.extractLsb' 0 4)
  | 0xE => .pitchbend (b.extractLsb' 0 4)
  | 0xF => decodeSystem (b.extractLsb' 0 4)
  | _ => decodeData sel (b.extractLsb' 0 7)

/-! ### The RA's controllers and the transactions -/

/-- A ControlChange1 event as the RA reads it (R120, R121). -/
def decodeCc (g ch : U4) (ctrl value : U7) : Instr :=
  match ctrl.toNat with
  | 101 => .raCc101 g ch value
  | 100 => .raCc100 g ch value
  | 99 => .raCc99 g ch value
  | 98 => .raCc98 g ch value
  | 6 => .raCc6 g ch value
  | 38 => .raCc38 g ch value
  | 96 => .raCc96 g ch value
  | 97 => .raCc97 g ch value
  | 121 => .raCc121 g ch value
  | _ => .raPass g ch ctrl value

/-- Word i of the port's operand (R80). -/
def dataWord (d : BitVec 128) (i : Nat) : Word := d.extractLsb' (32 * i) 32

/-- A transaction (R80): total, since tags 5 to 7 are rows of their own (R352). -/
def decodeTxn (t : Txn) : Instr :=
  match t.tag.toNat with
  | 0 => .byte (t.data.extractLsb' 0 8)
  | 1 => .word (dataWord t.data 0)
  | 2 => .packet (dataWord t.data 0)
      ([dataWord t.data 1, dataWord t.data 2, dataWord t.data 3].take t.len.toNat)
  | 3 => .reset
  | 4 => .config (dataWord t.data 0)
  | 5 => .tagRsvd5
  | 6 => .tagRsvd6
  | _ => .tagRsvd7

/-- The decoder: the instruction a code stands for, or the name of what is wrong with it. -/
def decode (sel : DataRow) : Code → Except DecodeError Instr
  | .txn t => .ok (decodeTxn t)
  | .byte8 b => .ok (decodeByte sel b)
  | .ump w0 rest => decodeUmp w0 rest
  | .cc7 g ch ctrl value => .ok (decodeCc g ch ctrl value)

/-! ### The encoder -/

/-- Word 0 from its nibbles and bytes (R90, R96 to R102). -/
def umpWord (mt g st x : U4) (b1 b2 : Byte) : Word := mt ++ g ++ st ++ x ++ b1 ++ b2

/-- Word 0 of MT 0x0, whose low half is one field (R96). -/
def umpWord0 (g st x : U4) (time : U16) : Word := 0x0#4 ++ g ++ st ++ x ++ time

/-- Word 0 of MT 0x1, whose status is a whole byte (R97). -/
def umpWord1 (g : U4) (status b1 b2 : Byte) : Word := 0x1#4 ++ g ++ status ++ b1 ++ b2

/-- Word 0 of MT 0x6 to 0xF (R104). -/
def umpWordR (mt g : U4) (r : BitVec 24) : Word := mt ++ g ++ r

/-- The port's operand that holds words w0 to w3, word i at data[32i+31:32i] (R80). -/
def portData (w0 w1 w2 w3 : Word) : BitVec 128 := w3 ++ w2 ++ w1 ++ w0

/-- A data byte (R82). -/
def dataByteOf (v : U7) : Byte := 0#1 ++ v

/-- The code of an instruction. -/
def encode : Instr → Code
  | .byte b => .txn ⟨0, 0, b.setWidth 128⟩
  | .word w => .txn ⟨1, 0, w.setWidth 128⟩
  | .packet w0 rest =>
      .txn ⟨2, BitVec.ofNat 2 rest.length, portData w0 (wordAt rest 0) (wordAt rest 1) (wordAt rest 2)⟩
  | .reset => .txn ⟨3, 0, 0⟩
  | .config v => .txn ⟨4, 0, v.setWidth 128⟩
  | .tagRsvd5 => .txn ⟨5, 0, 0⟩
  | .tagRsvd6 => .txn ⟨6, 0, 0⟩
  | .tagRsvd7 => .txn ⟨7, 0, 0⟩
  | .dataRs v => .byte8 (dataByteOf v)
  | .dataOrphan v => .byte8 (dataByteOf v)
  | .dataData v => .byte8 (dataByteOf v)
  | .dataSysex v => .byte8 (dataByteOf v)
  | .dataSxdiscard v => .byte8 (dataByteOf v)
  | .noteoff ch => .byte8 (0x8#4 ++ ch)
  | .noteon ch => .byte8 (0x9#4 ++ ch)
  | .polypress ch => .byte8 (0xA#4 ++ ch)
  | .cc ch => .byte8 (0xB#4 ++ ch)
  | .progchg ch => .byte8 (0xC#4 ++ ch)
  | .chanpress ch => .byte8 (0xD#4 ++ ch)
  | .pitchbend ch => .byte8 (0xE#4 ++ ch)
  | .sysexStart => .byte8 0xF0#8
  | .mtcQf => .byte8 0xF1#8
  | .songpos => .byte8 0xF2#8
  | .songsel => .byte8 0xF3#8
  | .undefF4 => .byte8 0xF4#8
  | .busselF5 => .byte8 0xF5#8
  | .tunereq => .byte8 0xF6#8
  | .eox => .byte8 0xF7#8
  | .clock => .byte8 0xF8#8
  | .undefF9 => .byte8 0xF9#8
  | .rtStart => .byte8 0xFA#8
  | .rtContinue => .byte8 0xFB#8
  | .rtStop => .byte8 0xFC#8
  | .undefFd => .byte8 0xFD#8
  | .actsense => .byte8 0xFE#8
  | .sysreset => .byte8 0xFF#8
  | .u0Noop g x time => .ump (umpWord0 g 0x0#4 x time) []
  | .u0Jrclock g x time => .ump (umpWord0 g 0x1#4 x time) []
  | .u0Jrts g x time => .ump (umpWord0 g 0x2#4 x time) []
  | .u0Other g st x time => .ump (umpWord0 g st x time) []
  | .u1MtcQf g b1 b2 => .ump (umpWord1 g 0xF1#8 b1 b2) []
  | .u1Songpos g b1 b2 => .ump (umpWord1 g 0xF2#8 b1 b2) []
  | .u1Songsel g b1 b2 => .ump (umpWord1 g 0xF3#8 b1 b2) []
  | .u1Bussel g b1 b2 => .ump (umpWord1 g 0xF5#8 b1 b2) []
  | .u1Tunereq g b1 b2 => .ump (umpWord1 g 0xF6#8 b1 b2) []
  | .u1Clock g b1 b2 => .ump (umpWord1 g 0xF8#8 b1 b2) []
  | .u1Start g b1 b2 => .ump (umpWord1 g 0xFA#8 b1 b2) []
  | .u1Continue g b1 b2 => .ump (umpWord1 g 0xFB#8 b1 b2) []
  | .u1Stop g b1 b2 => .ump (umpWord1 g 0xFC#8 b1 b2) []
  | .u1Actsense g b1 b2 => .ump (umpWord1 g 0xFE#8 b1 b2) []
  | .u1Sysreset g b1 b2 => .ump (umpWord1 g 0xFF#8 b1 b2) []
  | .u1Other g status b1 b2 => .ump (umpWord1 g status b1 b2) []
  | .u2Noteoff g ch b1 b2 => .ump (umpWord 0x2#4 g 0x8#4 ch b1 b2) []
  | .u2Noteon g ch b1 b2 => .ump (umpWord 0x2#4 g 0x9#4 ch b1 b2) []
  | .u2Polypress g ch b1 b2 => .ump (umpWord 0x2#4 g 0xA#4 ch b1 b2) []
  | .u2Cc g ch b1 b2 => .ump (umpWord 0x2#4 g 0xB#4 ch b1 b2) []
  | .u2Progchg g ch b1 b2 => .ump (umpWord 0x2#4 g 0xC#4 ch b1 b2) []
  | .u2Chanpress g ch b1 b2 => .ump (umpWord 0x2#4 g 0xD#4 ch b1 b2) []
  | .u2Pitchbend g ch b1 b2 => .ump (umpWord 0x2#4 g 0xE#4 ch b1 b2) []
  | .u2Other07 g op ch b1 b2 => .ump (umpWord 0x2#4 g (0#1 ++ op) ch b1 b2) []
  | .u2OtherF g ch b1 b2 => .ump (umpWord 0x2#4 g 0xF#4 ch b1 b2) []
  | .u3Complete g n b1 b2 w1 => .ump (umpWord 0x3#4 g 0x0#4 n b1 b2) [w1]
  | .u3Start g n b1 b2 w1 => .ump (umpWord 0x3#4 g 0x1#4 n b1 b2) [w1]
  | .u3Continue g n b1 b2 w1 => .ump (umpWord 0x3#4 g 0x2#4 n b1 b2) [w1]
  | .u3End g n b1 b2 w1 => .ump (umpWord 0x3#4 g 0x3#4 n b1 b2) [w1]
  | .u3Other g st n b1 b2 w1 => .ump (umpWord 0x3#4 g st n b1 b2) [w1]
  | .u4Pnrc g ch b1 b2 w1 => .ump (umpWord 0x4#4 g 0x0#4 ch b1 b2) [w1]
  | .u4Pnac g ch b1 b2 w1 => .ump (umpWord 0x4#4 g 0x1#4 ch b1 b2) [w1]
  | .u4Rc g ch b1 b2 w1 => .ump (umpWord 0x4#4 g 0x2#4 ch b1 b2) [w1]
  | .u4Ac g ch b1 b2 w1 => .ump (umpWord 0x4#4 g 0x3#4 ch b1 b2) [w1]
  | .u4Rrc g ch b1 b2 w1 => .ump (umpWord 0x4#4 g 0x4#4 ch b1 b2) [w1]
  | .u4Rac g ch b1 b2 w1 => .ump (umpWord 0x4#4 g 0x5#4 ch b1 b2) [w1]
  | .u4Pnpb g ch b1 b2 w1 => .ump (umpWord 0x4#4 g 0x6#4 ch b1 b2) [w1]
  | .u4Op7 g ch b1 b2 w1 => .ump (umpWord 0x4#4 g 0x7#4 ch b1 b2) [w1]
  | .u4Noteoff g ch b1 b2 w1 => .ump (umpWord 0x4#4 g 0x8#4 ch b1 b2) [w1]
  | .u4Noteon g ch b1 b2 w1 => .ump (umpWord 0x4#4 g 0x9#4 ch b1 b2) [w1]
  | .u4Polypress g ch b1 b2 w1 => .ump (umpWord 0x4#4 g 0xA#4 ch b1 b2) [w1]
  | .u4Cc g ch b1 b2 w1 => .ump (umpWord 0x4#4 g 0xB#4 ch b1 b2) [w1]
  | .u4Progchg g ch b1 b2 w1 => .ump (umpWord 0x4#4 g 0xC#4 ch b1 b2) [w1]
  | .u4Chanpress g ch b1 b2 w1 => .ump (umpWord 0x4#4 g 0xD#4 ch b1 b2) [w1]
  | .u4Pitchbend g ch b1 b2 w1 => .ump (umpWord 0x4#4 g 0xE#4 ch b1 b2) [w1]
  | .u4Pnmgmt g ch b1 b2 w1 => .ump (umpWord 0x4#4 g 0xF#4 ch b1 b2) [w1]
  | .u5Complete g n b1 b2 w1 w2 w3 => .ump (umpWord 0x5#4 g 0x0#4 n b1 b2) [w1, w2, w3]
  | .u5Start g n b1 b2 w1 w2 w3 => .ump (umpWord 0x5#4 g 0x1#4 n b1 b2) [w1, w2, w3]
  | .u5Continue g n b1 b2 w1 w2 w3 => .ump (umpWord 0x5#4 g 0x2#4 n b1 b2) [w1, w2, w3]
  | .u5End g n b1 b2 w1 w2 w3 => .ump (umpWord 0x5#4 g 0x3#4 n b1 b2) [w1, w2, w3]
  | .u5Other g st n b1 b2 w1 w2 w3 => .ump (umpWord 0x5#4 g st n b1 b2) [w1, w2, w3]
  | .u6 g r => .ump (umpWordR 0x6#4 g r) []
  | .u7 g r => .ump (umpWordR 0x7#4 g r) []
  | .u8 g r w1 => .ump (umpWordR 0x8#4 g r) [w1]
  | .u9 g r w1 => .ump (umpWordR 0x9#4 g r) [w1]
  | .uA g r w1 => .ump (umpWordR 0xA#4 g r) [w1]
  | .uB g r w1 w2 => .ump (umpWordR 0xB#4 g r) [w1, w2]
  | .uC g r w1 w2 => .ump (umpWordR 0xC#4 g r) [w1, w2]
  | .uD g r w1 w2 w3 => .ump (umpWordR 0xD#4 g r) [w1, w2, w3]
  | .uE g r w1 w2 w3 => .ump (umpWordR 0xE#4 g r) [w1, w2, w3]
  | .uF g r w1 w2 w3 => .ump (umpWordR 0xF#4 g r) [w1, w2, w3]
  | .raCc101 g ch v => .cc7 g ch 101#7 v
  | .raCc100 g ch v => .cc7 g ch 100#7 v
  | .raCc99 g ch v => .cc7 g ch 99#7 v
  | .raCc98 g ch v => .cc7 g ch 98#7 v
  | .raCc6 g ch v => .cc7 g ch 6#7 v
  | .raCc38 g ch v => .cc7 g ch 38#7 v
  | .raCc96 g ch v => .cc7 g ch 96#7 v
  | .raCc97 g ch v => .cc7 g ch 97#7 v
  | .raCc121 g ch v => .cc7 g ch 121#7 v
  | .raPass g ch ctrl v => .cc7 g ch ctrl v

/-! ### How a code comes to the port, and the host's table words -/

/-- The transaction that brings a code to the block: a byte on the byte port, a packet on the packet port, a
controller as the MT 0x2 control change that delivers it (R80, R244, R310). -/
def Code.present : Code → Txn
  | .txn t => t
  | .byte8 b => ⟨0, 0, b.setWidth 128⟩
  | .ump w0 rest =>
      ⟨2, BitVec.ofNat 2 rest.length, portData w0 (wordAt rest 0) (wordAt rest 1) (wordAt rest 2)⟩
  | .cc7 g ch ctrl value =>
      ⟨2, 0, (umpWord 0x2#4 g 0xB#4 ch (dataByteOf ctrl) (dataByteOf value)).setWidth 128⟩

/-- The code an opcode-table word stands for. DESIGN CHOICE (log entry 5): the table's three 8-bit formats overlap
(TXN tags 0 to 7, data bytes 0x00 to 0x7F, controllers), so an 8-bit word below 8 is a tag, a controller number of
the RA above 7 is that controller (group, channel and value 0), and any other is a byte. From 32 bits on, a word is a
UMP packet of as many words as its message type has. -/
def tableCode (nbits w : Nat) : Option Code :=
  if nbits = 8 then
    if w < 8 then some (.txn ⟨BitVec.ofNat 3 w, 0, 0⟩)
    else if w < 128 && raControllers.contains (BitVec.ofNat 7 w) then some (.cc7 0 0 (BitVec.ofNat 7 w) 0)
    else some (.byte8 (BitVec.ofNat 8 w))
  else if 32 ≤ nbits then
    let w0 := BitVec.ofNat 32 w
    let rest := [BitVec.ofNat 32 (w / 2 ^ 32), BitVec.ofNat 32 (w / 2 ^ 64), BitVec.ofNat 32 (w / 2 ^ 96)]
    some (.ump w0 (rest.take (wc (mtOf w0) - 1)))
  else none

/-- The instruction the decoder reads from a word of the opcode table. A data byte is read as in the reset state,
where DATA.ORPHAN is selected (R142). -/
def decodeTableWord (nbits w : Nat) : Option Instr :=
  match tableCode nbits w with
  | some c => (decode .orphan c).toOption
  | none => none

end Sys2Proof
end

