-- ==== Sys2Proof/Machine/Event.lean ====
section
/-! DEFINITION. Output items and event records: 30_encoding.md rules R110 to R117, and the diagnostic codes of
60_exceptions.md rule R361. The widths of the fields are the construction invariants of R117: no record can hold a
value out of its range. -/

namespace Sys2Proof.Machine

/-- RPN or NRPN: the kind of a parameter number (R32, R113). -/
inductive ParamKind where
  | rpn
  | nrpn
  deriving DecidableEq, Repr

/-- The operation of an assembled parameter event: absolute-set, relative-increment, relative-decrement (R113). -/
inductive ParamOp where
  | abs
  | inc
  | dec
  deriving DecidableEq, Repr

/-- The value of a parameter event (R113): two 7-bit bytes from MIDI-1 controllers (C4), or 32 bits from MT 0x4. -/
inductive ParamValue where
  | v7 (msb lsb : U7)
  | v32 (v : Word)
  deriving DecidableEq, Repr

/-- A decoded event (R111 to R116). `g` is the group, `ch` the channel. -/
inductive Event where
  -- MIDI-1 domain, R111
  | noteOff1 (g ch : U4) (note vel : U7)
  | noteOn1 (g ch : U4) (note vel : U7)
  | polyPressure1 (g ch : U4) (note pressure : U7)
  | controlChange1 (g ch : U4) (ctrl value : U7)
  | programChange1 (g ch : U4) (program : U7)
  | channelPressure1 (g ch : U4) (pressure : U7)
  | pitchBend1 (g ch : U4) (value : U14)
  -- MIDI-2 domain, R112
  | noteOff2 (g ch : U4) (note : U7) (attrType : Byte) (vel attrData : U16)
  | noteOn2 (g ch : U4) (note : U7) (attrType : Byte) (vel attrData : U16)
  | polyPressure2 (g ch : U4) (note : U7) (data : Word)
  | controlChange2 (g ch : U4) (ctrl : U7) (data : Word)
  | programChange2 (g ch : U4) (program : U7) (bankValid : Bool) (bankMSB bankLSB : U7)
  | channelPressure2 (g ch : U4) (data : Word)
  | pitchBend2 (g ch : U4) (data : Word)
  | perNotePitchBend (g ch : U4) (note : U7) (data : Word)
  | perNoteController (g ch : U4) (note : U7) (registered : Bool) (index : Byte) (data : Word)
  | perNoteManagement (g ch : U4) (note : U7) (detach reset : Bool)
  -- assembled parameters, R113
  | paramNumber (g ch : U4) (kind : ParamKind) (param : U14) (op : ParamOp) (value : ParamValue)
  -- system exclusive, R114
  | sysEx7 (g : U4) (payload : List U7)
  | sysEx8 (g : U4) (stream : Byte) (payload : List Byte)
  -- system, R115
  | quarterFrame (g : U4) (data : U7)
  | songPosition (g : U4) (value : U14)
  | songSelect (g : U4) (song : U7)
  | tuneRequest (g : U4)
  | busSelect (g : U4) (bus : U7)
  | timingClock (g : U4)
  | start (g : U4)
  | contin (g : U4)
  | stop (g : U4)
  | activeSensing (g : U4)
  | systemReset (g : U4)
  -- utility, R116
  | noOp (g : U4)
  | jrClock (g : U4) (time : U16)
  | jrTimestamp (g : U4) (time : U16)
  deriving DecidableEq, Repr

/-- The diagnostic codes, in the order of R361. -/
inductive DiagCode where
  | orphanData
  | truncated
  | sysexAborted
  | orphanEox
  | undefined
  | sysexOverflow
  | length
  | range
  | unsupported
  | sysexSequence
  | sysexStream
  deriving DecidableEq, Repr

/-- An element of OUT (R110): an event, or a diagnostic with its info word (R362). -/
inductive Item where
  | ev (e : Event)
  | dg (code : DiagCode) (info : Word)
  deriving DecidableEq, Repr

/-- The universal tag of a SysEx event (R114). -/
inductive UnivTag where
  | nonRealtime
  | realtime
  | manufacturer
  deriving DecidableEq, Repr

end Sys2Proof.Machine
end

