-- ==== Sys2Proof/Machine/State.lean ====
section
/-! DEFINITION. The state of the block (10_state.md rules R20 to R45), the two reasons a step could stop, and the state
after power-on. -/

namespace Sys2Proof.Machine

/-- `MP.mode` (R22). -/
inductive Mode where
  | idle
  | data
  | sysex
  | sxdiscard
  deriving DecidableEq, Repr

/-- The MIDI-1 parser (R22 to R26). -/
structure Mp where
  /-- what the next data byte is for (R22) -/
  mode : Mode
  /-- running status (R23) -/
  rs : Option Byte
  /-- the status whose data bytes are being collected (R24) -/
  cur : Byte
  /-- data bytes collected so far, 0..1 (R25) -/
  k : Nat
  /-- the first of them (R25) -/
  d0 : U7
  /-- the SysEx7 payload so far (R26) -/
  sx : List U7
  deriving DecidableEq, Repr

/-- The word framer (R28). -/
structure Wf where
  /-- the words of an incomplete packet -/
  buf : List Word
  /-- its word count, 0 when there is none -/
  need : Nat
  deriving DecidableEq, Repr

/-- An open SysEx8 buffer: the stream identifier of its start packet and the payload (R30). -/
structure Sx8 where
  stream : Byte
  payload : List Byte
  deriving DecidableEq, Repr

/-- The UMP decoder's reassembly buffers, one of each kind per group (R29 to R31). -/
structure Up where
  sx7 : Vector (Option (List U7)) 16
  sx8 : Vector (Option Sx8) 16
  deriving DecidableEq, Repr

/-- One record of the RPN/NRPN assembler (R32). `kind = none` is the spec's NONE. -/
structure RaRec where
  kind : Option ParamKind
  nMSB : Option U7
  nLSB : Option U7
  dMSB : Option U7
  dLSB : Option U7
  deriving DecidableEq, Repr

/-- The empty record (R33, R45, R312). -/
def RaRec.empty : RaRec := ⟨none, none, none, none, none⟩

/-- The state of one block instance (R20), and the model's own two fields. -/
structure State where
  /-- CFG, the configuration register (R40) -/
  cfg : Word
  /-- MP, the MIDI-1 parser -/
  mp : Mp
  /-- WF, the word framer -/
  wf : Wf
  /-- UP, the UMP decoder -/
  up : Up
  /-- RA, the record of group g and channel c at index g, then c (R32) -/
  ra : Vector (Vector RaRec 16) 16
  /-- OUT, every item appended since power-on, oldest first (R34) -/
  out : List Item
  /-- SYSEX_MAX, the open parameter (R7): the model's own field, written by no step (log entry 1) -/
  sysexMax : SysexMax
  /-- the transactions the environment will present, the next one first (R21, R73): the model's own field, which a
  step reads from the front (log entry 2) -/
  inp : List Txn
  deriving DecidableEq, Repr

/-- The reasons for which the machine stops with a fault: there is none. The block has no trap (R370), no diagnostic
is fatal (R365), and no case of the spec is modelled as a fault (93_implementation_defined.md Part 1). -/
inductive Fault where
  deriving DecidableEq, Repr

/-- The reasons for which an instruction is refused. -/
inductive Refusal where
  /-- Raised by an arm of exec for an instruction that has no meaning yet: by none. Safe. -/
  | notModelled (mnemonic : String)
  /-- Raised by exec of one of the five DATA rows in a state that selects another of them (opcode_table.json: "selected
  by state"): the spec gives the row no effect there, and the byte runs the row the state does select. No step raises
  it, since BYTE runs the selected row (R140). Safe (log entry 6). -/
  | notSelected (mnemonic : String)
  deriving DecidableEq, Repr

/-- MP at reset (R45). -/
def Mp.reset : Mp := ⟨.idle, none, 0x00#8, 0, 0x00#7, []⟩

/-- WF at reset (R45). -/
def Wf.reset : Wf := ⟨[], 0⟩

/-- UP at reset (R45): every buffer closed. -/
def Up.reset : Up := ⟨Vector.replicate 16 none, Vector.replicate 16 none⟩

/-- RA at reset (R45): 256 empty records. -/
def raReset : Vector (Vector RaRec 16) 16 := Vector.replicate 16 (Vector.replicate 16 RaRec.empty)

/-- The machine after power-on (R45, R390). `sysexMax` is a DESIGN CHOICE (log entry 1), unsafe; `inp` is empty, since
the block does nothing until a first transaction is presented (R390, log entry 2). -/
def State.reset : State :=
  { cfg := Config.cfgReset, mp := Mp.reset, wf := Wf.reset, up := Up.reset, ra := raReset, out := [],
    sysexMax := Config.sysexMaxReset, inp := [] }

end Sys2Proof.Machine
end

