-- ==== Sys2Proof/Machine/Flags.lean ====
section
/-! DEFINITION. The bits the rules test: the fields of CFG (10_state.md R40), the classes of a byte (R12, R82), the
range-checked bit 7 (R91, R220) and the derived predicates of R33 and R114. The block has no other flag (R36). -/

namespace Sys2Proof.Machine

/-- CFG.VEL0_OFF, bit 0 (R40). -/
def vel0Off (cfg : Word) : Bool := cfg.getLsbD 0

/-- CFG.DE_EMIT_ON_MSB, bit 1 (R40). -/
def deEmitOnMsb (cfg : Word) : Bool := cfg.getLsbD 1

/-- CFG.SC_CLEARS_RS, bit 2 (R40). -/
def scClearsRs (cfg : Word) : Bool := cfg.getLsbD 2

/-- CFG.SYSEX_INT_EMIT, bit 3 (R40). -/
def sysexIntEmit (cfg : Word) : Bool := cfg.getLsbD 3

/-- CFG.CC121_RESETS_RA, bit 4 (R40). -/
def cc121ResetsRa (cfg : Word) : Bool := cfg.getLsbD 4

/-- CFG.BUS_SELECT_EN, bit 5 (R40). -/
def busSelectEn (cfg : Word) : Bool := cfg.getLsbD 5

/-- CFG.M1_GROUP, bits 11:8 (R40). -/
def m1Group (cfg : Word) : U4 := cfg.extractLsb' 8 4

/-- `isRT(b)`: a real-time byte, 0xF8 to 0xFF (R12, R82). -/
def isRT (b : Byte) : Bool := decide (0xF8#8 ≤ b)

/-- `isData(b)`: bit 7 clear (R12, R82). -/
def isData (b : Byte) : Bool := !b.getLsbD 7

/-- Bit 7 of a byte that carries a 7-bit field, which `chk` names (R91, R220). -/
def bit7 (b : Byte) : Bool := b.getLsbD 7

/-- The 7-bit field of a byte. -/
def low7 (b : Byte) : U7 := b.extractLsb' 0 7

/-- `num14(msb, lsb)`: the 14-bit value 128·msb + lsb (R9, R12). -/
def num14 (msb lsb : U7) : U14 := msb ++ lsb

/-- The complete parameter number of an RA record with its kind, if it has one (R33, R311). -/
def RaRec.number (r : RaRec) : Option (ParamKind × U14) :=
  match r.kind, r.nMSB, r.nLSB with
  | some k, some m, some l => some (k, num14 m l)
  | _, _, _ => none

/-- SYSEX_MAX ≠ INF and a payload of `len` bytes is longer (R271 to R274, R281 to R284). -/
def exceedsMax (m : SysexMax) (len : Nat) : Bool :=
  match m with
  | .inf => false
  | .bytes n => decide (n < len)

/-- SYSEX_MAX ≠ INF and a payload of `len` bytes has exactly that length (R144). -/
def reachesMax (m : SysexMax) (len : Nat) : Bool :=
  match m with
  | .inf => false
  | .bytes n => decide (len = n)

/-- SYSEX_MAX mod 2^32, the info of SYSEX_OVERFLOW (R362); INF never overflows. -/
def maxInfo (m : SysexMax) : Word :=
  match m with
  | .inf => 0
  | .bytes n => BitVec.ofNat 32 n

/-- The number of a diagnostic code (R361). -/
def DiagCode.num : DiagCode → U4
  | .orphanData => 1
  | .truncated => 2
  | .sysexAborted => 3
  | .orphanEox => 4
  | .undefined => 5
  | .sysexOverflow => 6
  | .length => 7
  | .range => 8
  | .unsupported => 9
  | .sysexSequence => 10
  | .sysexStream => 11

/-- `univ(payload)` from the first payload byte, if there is one (R114). -/
def univ (first : Option Nat) : UnivTag :=
  match first with
  | some 0x7E => .nonRealtime
  | some 0x7F => .realtime
  | _ => .manufacturer

/-- The universal tag of a SysEx event (R114); it is computed and not stored. -/
def Event.univ : Event → Option UnivTag
  | .sysEx7 _ payload => some (Machine.univ (payload.head?.map BitVec.toNat))
  | .sysEx8 _ _ payload => some (Machine.univ (payload.head?.map BitVec.toNat))
  | _ => none

end Sys2Proof.Machine
end

