-- ==== Sys2Proof/Machine/Operands.lean ====
section
/-! DEFINITION. Operands: the data-byte count of a status (30_encoding.md R86), the event a complete MIDI-1 message is
(R87, R148 to R160), and the payload bytes of the UMP data packets (R65, R99, R102, R270, R280). -/

namespace Sys2Proof.Machine

/-- `need(s)`, the data bytes of a status byte that collects data bytes (R86); 0 for every other byte. The count of
0xF5 does not depend on CFG (C7). -/
def need (s : Byte) : Nat :=
  match s.toNat / 16 with
  | 0x8 | 0x9 | 0xA | 0xB | 0xE => 2
  | 0xC | 0xD => 1
  | 0xF =>
    match s.toNat with
    | 0xF1 | 0xF3 | 0xF5 => 1
    | 0xF2 => 2
    | _ => 0
  | _ => 0

/-- The channel of a channel status byte, s[3:0] (R83). -/
def statusChannel (s : Byte) : U4 := s.extractLsb' 0 4

/-- The event of a note-on from the byte port, under the velocity-0 policy (R149). -/
def noteOnEvent (cfg : Word) (ch : U4) (d1 d2 : U7) : Event :=
  if d2 = 0#7 ∧ vel0Off cfg = true then .noteOff1 (m1Group cfg) ch d1 0#7
  else .noteOn1 (m1Group cfg) ch d1 d2

/-- The event of a system-common message with data bytes (R156, R157, R158, R160). -/
def systemEvent (cfg : Word) (s : Byte) (d1 d2 : U7) : Option Event :=
  match s.toNat with
  | 0xF1 => some (.quarterFrame (m1Group cfg) d1)
  | 0xF2 => some (.songPosition (m1Group cfg) (num14 d2 d1))
  | 0xF3 => some (.songSelect (m1Group cfg) d1)
  | 0xF5 => some (.busSelect (m1Group cfg) d1)
  | _ => none

/-- The event of a complete MIDI-1 message with status s and data bytes d1, d2 (R87, R146, R148 to R160). A status that
collects no data bytes has none: `MP.cur` and `MP.rs` never hold one (log entry 4). -/
def messageEvent (cfg : Word) (s : Byte) (d1 d2 : U7) : Option Event :=
  match s.toNat / 16 with
  | 0x8 => some (.noteOff1 (m1Group cfg) (statusChannel s) d1 d2)
  | 0x9 => some (noteOnEvent cfg (statusChannel s) d1 d2)
  | 0xA => some (.polyPressure1 (m1Group cfg) (statusChannel s) d1 d2)
  | 0xB => some (.controlChange1 (m1Group cfg) (statusChannel s) d1 d2)
  | 0xC => some (.programChange1 (m1Group cfg) (statusChannel s) d1)
  | 0xD => some (.channelPressure1 (m1Group cfg) (statusChannel s) d1)
  | 0xE => some (.pitchBend1 (m1Group cfg) (statusChannel s) (num14 d2 d1))
  | 0xF => systemEvent cfg s d1 d2
  | _ => none

/-- The four bytes of a word, most significant first (R65). -/
def wordBytes (w : Word) : List Byte :=
  [w.extractLsb' 24 8, w.extractLsb' 16 8, w.extractLsb' 8 8, w.extractLsb' 0 8]

/-- The first n payload bytes of an MT 0x3 packet (R65, R99, R270). -/
def sx7Bytes (n : U4) (b1 b2 : Byte) (w1 : Word) : List Byte :=
  (b1 :: b2 :: wordBytes w1).take n.toNat

/-- The 7-bit payload of an MT 0x3 packet, or none where a check of R270 gives RANGE: numBytes over 6, or bit 7 set in
a valid byte. -/
def sx7Payload (n : U4) (b1 b2 : Byte) (w1 : Word) : Option (List U7) :=
  if 6 < n.toNat then none
  else if (sx7Bytes n b1 b2 w1).any bit7 then none
  else some ((sx7Bytes n b1 b2 w1).map low7)

/-- The 8-bit payload of an MT 0x5 packet, or none where a check of R280 gives RANGE: numBytes 0 or over 14. numBytes
counts the stream identifier. -/
def sx8Payload (n : U4) (b2 : Byte) (w1 w2 w3 : Word) : Option (List Byte) :=
  if n.toNat = 0 ∨ 14 < n.toNat then none
  else some ((b2 :: (wordBytes w1 ++ wordBytes w2 ++ wordBytes w3)).take (n.toNat - 1))

end Sys2Proof.Machine
end

