-- ==== Sys2Proof/Machine/Ops.lean ====
section
/-! DEFINITION. The named operations every meaning is made of: appending to OUT (00_scope.md R11, 10_state.md R34), the
buffers and records by index, and taking the next transaction from the input. The block takes no exception and returns
from none (60_exceptions.md R370, R371): the one operation that reports an error is `State.diag` (R360). -/

namespace Sys2Proof.Machine

/-- What an instruction answers. -/
abbrev Result := Host.Outcome State Fault Refusal

/-- `out(E)`: append an event to OUT (R11). -/
def State.emit (s : State) (e : Event) : State := { s with out := s.out ++ [.ev e] }

/-- `diag(code, info)`: append a diagnostic to OUT (R11, R360). -/
def State.diag (s : State) (code : DiagCode) (info : Word) : State :=
  { s with out := s.out ++ [.dg code info] }

/-- The diagnostic of a SysEx that passes SYSEX_MAX (R144, R276, R362). -/
def State.overflowDiag (s : State) : State := s.diag .sysexOverflow (maxInfo s.sysexMax)

/-- The group of every event the MP emits, read at emission (R42, R146). -/
def State.group (s : State) : U4 := m1Group s.cfg

/-- `UP.sx7[g]` (R29). -/
def State.sx7At (s : State) (g : U4) : Option (List U7) := s.up.sx7[g.toNat]'(g.isLt)

/-- `UP.sx7[g] <- b`. -/
def State.setSx7 (s : State) (g : U4) (b : Option (List U7)) : State :=
  { s with up := { s.up with sx7 := s.up.sx7.set g.toNat b g.isLt } }

/-- `UP.sx8[g]` (R30). -/
def State.sx8At (s : State) (g : U4) : Option Sx8 := s.up.sx8[g.toNat]'(g.isLt)

/-- `UP.sx8[g] <- b`. -/
def State.setSx8 (s : State) (g : U4) (b : Option Sx8) : State :=
  { s with up := { s.up with sx8 := s.up.sx8.set g.toNat b g.isLt } }

/-- `RA[g][c]` (R32). -/
def State.raAt (s : State) (g c : U4) : RaRec := (s.ra[g.toNat]'(g.isLt))[c.toNat]'(c.isLt)

/-- `RA[g][c] <- r`. -/
def State.setRa (s : State) (g c : U4) (r : RaRec) : State :=
  { s with ra := s.ra.set g.toNat ((s.ra[g.toNat]'(g.isLt)).set c.toNat r c.isLt) g.isLt }

/-- The next transaction the environment presents, and the state once it is taken (R21, R73); none where it presents
none. -/
def State.fetch (s : State) : Option (Txn × State) :=
  match s.inp with
  | [] => none
  | t :: rest => some (t, { s with inp := rest })

/-- Present a transaction as the very next one. -/
def State.present (s : State) (t : Txn) : State := { s with inp := t :: s.inp }

end Sys2Proof.Machine
end

