-- ==== Sys2Proof/Machine/Ra.lean ====
section
/-! DEFINITION. The RPN/NRPN parameter assembler: 44_rpn_nrpn.md rules R310 to R323. `deliver` is the one entry to it
(R310), and each controller of R121 is an instruction whose operands are those of the ControlChange1 event. -/

namespace Sys2Proof.Machine

/-- The half of a parameter number that `storeNumber` stores (R313). -/
inductive Half where
  | msb
  | lsb
  deriving DecidableEq, Repr

/-- The last line of `storeNumber`: 127 in both halves is the null number, which clears the record (R313, D29). -/
def RaRec.dropNull (r : RaRec) : RaRec :=
  if r.nMSB = some 127#7 ∧ r.nLSB = some 127#7 then RaRec.empty else r

/-- `storeNumber(r, k, half, v)` (R313): a number of the other kind is discarded first (D28), and pending data entry is
dropped. -/
def RaRec.storeNumber (r : RaRec) (k : ParamKind) (half : Half) (v : U7) : RaRec :=
  let base := if r.kind ≠ none ∧ r.kind ≠ some k then RaRec.empty else r
  match half with
  | .msb => RaRec.dropNull { kind := some k, nMSB := some v, nLSB := base.nLSB, dMSB := none, dLSB := none }
  | .lsb => RaRec.dropNull { kind := some k, nMSB := base.nMSB, nLSB := some v, dMSB := none, dLSB := none }

/-- `storeNumber` on `RA[g][ch]`; the control change is consumed (R314 to R317). -/
def State.raStore (s : State) (g ch : U4) (k : ParamKind) (half : Half) (v : U7) : State :=
  s.setRa g ch ((s.raAt g ch).storeNumber k half v)

/-- `if complete(r): emit(r, op, val)` (R311). -/
def State.raEmit (s : State) (g ch : U4) (op : ParamOp) (val : ParamValue) : State :=
  match (s.raAt g ch).number with
  | some (k, p) => s.emit (.paramNumber g ch k p op val)
  | none => s

/-- Data entry MSB (R318). -/
def State.raDataMsb (s : State) (g ch : U4) (v : U7) : State :=
  match (s.raAt g ch).number with
  | none => s
  | some _ =>
    let s := s.setRa g ch { s.raAt g ch with dMSB := some v, dLSB := none }
    if deEmitOnMsb s.cfg = true then s.raEmit g ch .abs (.v7 v 0#7) else s

/-- Data entry LSB (R319). -/
def State.raDataLsb (s : State) (g ch : U4) (v : U7) : State :=
  match (s.raAt g ch).number, (s.raAt g ch).dMSB with
  | some _, some m =>
    (s.setRa g ch { s.raAt g ch with dLSB := some v }).raEmit g ch .abs (.v7 m v)
  | _, _ => s

/-- Reset all controllers: clear the record when CFG says so, and pass the event on (R322). -/
def State.raResetControllers (s : State) (g ch : U4) (v : U7) : State :=
  let s := if cc121ResetsRa s.cfg = true then s.setRa g ch RaRec.empty else s
  s.emit (.controlChange1 g ch 121#7 v)

/-- The rule of R121 for a controller, run on `RA[g][ch]` (R310). -/
def State.controlChange (s : State) (g ch : U4) (ctrl v : U7) : State :=
  match ctrl.toNat with
  | 101 => s.raStore g ch .rpn .msb v
  | 100 => s.raStore g ch .rpn .lsb v
  | 99 => s.raStore g ch .nrpn .msb v
  | 98 => s.raStore g ch .nrpn .lsb v
  | 6 => s.raDataMsb g ch v
  | 38 => s.raDataLsb g ch v
  | 96 => s.raEmit g ch .inc (.v7 0#7 v)
  | 97 => s.raEmit g ch .dec (.v7 0#7 v)
  | 121 => s.raResetControllers g ch v
  | _ => s.emit (.controlChange1 g ch ctrl v)

/-- `deliver(E)` (R310): a ControlChange1 event goes through the RA, every other event straight to OUT. -/
def State.deliver (s : State) (e : Event) : State :=
  match e with
  | .controlChange1 g ch ctrl v => s.controlChange g ch ctrl v
  | e => s.emit e

/-- RA.CC101, RPN number MSB (R314). -/
def execRaCc101 (g ch : U4) (v : U7) (s : State) : Result := .next (s.raStore g ch .rpn .msb v)

/-- RA.CC100, RPN number LSB (R315). -/
def execRaCc100 (g ch : U4) (v : U7) (s : State) : Result := .next (s.raStore g ch .rpn .lsb v)

/-- RA.CC99, NRPN number MSB (R316). -/
def execRaCc99 (g ch : U4) (v : U7) (s : State) : Result := .next (s.raStore g ch .nrpn .msb v)

/-- RA.CC98, NRPN number LSB (R317). -/
def execRaCc98 (g ch : U4) (v : U7) (s : State) : Result := .next (s.raStore g ch .nrpn .lsb v)

/-- RA.CC6, data entry MSB (R318). -/
def execRaCc6 (g ch : U4) (v : U7) (s : State) : Result := .next (s.raDataMsb g ch v)

/-- RA.CC38, data entry LSB (R319). -/
def execRaCc38 (g ch : U4) (v : U7) (s : State) : Result := .next (s.raDataLsb g ch v)

/-- RA.CC96, data increment (R320). -/
def execRaCc96 (g ch : U4) (v : U7) (s : State) : Result := .next (s.raEmit g ch .inc (.v7 0#7 v))

/-- RA.CC97, data decrement (R321). -/
def execRaCc97 (g ch : U4) (v : U7) (s : State) : Result := .next (s.raEmit g ch .dec (.v7 0#7 v))

/-- RA.CC121, reset all controllers (R322). -/
def execRaCc121 (g ch : U4) (v : U7) (s : State) : Result := .next (s.raResetControllers g ch v)

/-- RA.PASS, any other controller (R323). -/
def execRaPass (g ch : U4) (ctrl v : U7) (s : State) : Result := .next (s.emit (.controlChange1 g ch ctrl v))

end Sys2Proof.Machine
end

