-- ==== Sys2Proof/Machine/Midi1.lean ====
section
/-! DEFINITION. The MIDI-1 byte stream parser: 40_midi1_parser.md rules R140 to R170. -/

namespace Sys2Proof.Machine

/-! ### Shared procedures -/

/-- `complete(s, d1, d2)`: build the event of status st and deliver it (R146). It writes no MP state. -/
def State.complete (s : State) (st : Byte) (d1 d2 : U7) : State :=
  match messageEvent s.cfg st d1 d2 with
  | some e => s.deliver e
  | none => s

/-- The first part of `preempt(b)`: end what was in progress (R147). -/
def State.endInProgress (s : State) (b : Byte) : State :=
  match s.mp.mode with
  | .data =>
    let s := s.diag .truncated (s.mp.cur.setWidth 32)
    { s with mp := { s.mp with mode := .idle, k := 0 } }
  | .sysex =>
    if b = 0xF7#8 then s
    else
      let s := if sysexIntEmit s.cfg = true then s.deliver (.sysEx7 s.group s.mp.sx)
        else s.diag .sysexAborted (b.setWidth 32)
      { s with mp := { s.mp with sx := [], mode := .idle } }
  | .sxdiscard => if b = 0xF7#8 then s else { s with mp := { s.mp with mode := .idle } }
  | .idle => s

/-- `preempt(b)`, run for every status byte 0x80 to 0xF7 before its own rule (R147). -/
def State.preempt (s : State) (b : Byte) : State :=
  let s := s.endInProgress b
  if 0xF0#8 ≤ b ∧ scClearsRs s.cfg = true then { s with mp := { s.mp with rs := none } } else s

/-- `preempt(st); start(st)` of a channel status byte (40_midi1_parser.md section 2). -/
def State.startChannel (s : State) (st : Byte) : State :=
  let s := s.preempt st
  { s with mp := { s.mp with rs := some st, cur := st, k := 0, mode := .data } }

/-- Await the data bytes of a system-common status, after preempt: running status is not set (R156). -/
def State.awaitData (s : State) (st : Byte) : State :=
  { s with mp := { s.mp with cur := st, k := 0, mode := .data } }

/-! ### Data bytes (R141 to R145) -/

/-- The DATA row the MP state selects for a data byte (R140: "handled by the mode it finds"). -/
def State.dataRow (s : State) : DataRow :=
  match s.mp.mode with
  | .idle => if s.mp.rs.isSome then .rs else .orphan
  | .data => .data
  | .sysex => .sysex
  | .sxdiscard => .sxdiscard

/-- In IDLE with running status st: the message's only data byte, or its first (R141). -/
def State.dataRunning (s : State) (st : Byte) (v : U7) : State :=
  if need st = 1 then s.complete st v 0#7
  else { s with mp := { s.mp with cur := st, d0 := v, k := 1, mode := .data } }

/-- In IDLE with no running status: an orphan (R142). -/
def State.dataNoStatus (s : State) (v : U7) : State := s.diag .orphanData (v.setWidth 32)

/-- In DATA: the message's last data byte, or its first of two (R143). -/
def State.dataInMessage (s : State) (v : U7) : State :=
  if s.mp.k + 1 = need s.mp.cur then
    let s := if s.mp.k = 0 then s.complete s.mp.cur v 0#7 else s.complete s.mp.cur s.mp.d0 v
    { s with mp := { s.mp with mode := .idle, k := 0 } }
  else { s with mp := { s.mp with d0 := v, k := 1 } }

/-- In SYSEX: accumulate, or overflow past SYSEX_MAX (R144). -/
def State.dataInSysex (s : State) (v : U7) : State :=
  if reachesMax s.sysexMax s.mp.sx.length = true then
    let s := s.overflowDiag
    { s with mp := { s.mp with sx := [], mode := .sxdiscard } }
  else { s with mp := { s.mp with sx := s.mp.sx ++ [v] } }

/-- A data byte, by the mode it finds (R140). In SXDISCARD it is dropped (R145). -/
def State.dataByte (s : State) (v : U7) : State :=
  match s.mp.mode with
  | .idle =>
    match s.mp.rs with
    | some st => s.dataRunning st v
    | none => s.dataNoStatus v
  | .data => s.dataInMessage v
  | .sysex => s.dataInSysex v
  | .sxdiscard => s

/-- DATA.RS: selected in IDLE with running status (R141). -/
def execDataRs (v : U7) (s : State) : Result :=
  match s.mp.mode, s.mp.rs with
  | .idle, some st => .next (s.dataRunning st v)
  | _, _ => .refused (.notSelected "DATA.RS")

/-- DATA.ORPHAN: selected in IDLE with no running status (R142). -/
def execDataOrphan (v : U7) (s : State) : Result :=
  match s.mp.mode, s.mp.rs with
  | .idle, none => .next (s.dataNoStatus v)
  | _, _ => .refused (.notSelected "DATA.ORPHAN")

/-- DATA.DATA: selected in DATA (R143). -/
def execDataData (v : U7) (s : State) : Result :=
  match s.mp.mode with
  | .data => .next (s.dataInMessage v)
  | _ => .refused (.notSelected "DATA.DATA")

/-- DATA.SYSEX: selected in SYSEX (R144). -/
def execDataSysex (v : U7) (s : State) : Result :=
  match s.mp.mode with
  | .sysex => .next (s.dataInSysex v)
  | _ => .refused (.notSelected "DATA.SYSEX")

/-- DATA.SXDISCARD: selected in SXDISCARD; the byte is dropped and nothing changes (R145). -/
def execDataSxdiscard (_v : U7) (s : State) : Result :=
  match s.mp.mode with
  | .sxdiscard => .next s
  | _ => .refused (.notSelected "DATA.SXDISCARD")

/-! ### Channel status bytes (R148 to R154) -/

/-- NOTEOFF, 0x8n (R148). -/
def execNoteoff (ch : U4) (s : State) : Result := .next (s.startChannel (0x8#4 ++ ch))

/-- NOTEON, 0x9n (R149). The velocity-0 policy is applied on completion (`noteOnEvent`). -/
def execNoteon (ch : U4) (s : State) : Result := .next (s.startChannel (0x9#4 ++ ch))

/-- POLYPRESS, 0xAn (R150). -/
def execPolypress (ch : U4) (s : State) : Result := .next (s.startChannel (0xA#4 ++ ch))

/-- CC, 0xBn (R151). -/
def execCc (ch : U4) (s : State) : Result := .next (s.startChannel (0xB#4 ++ ch))

/-- PROGCHG, 0xCn (R152). -/
def execProgchg (ch : U4) (s : State) : Result := .next (s.startChannel (0xC#4 ++ ch))

/-- CHANPRESS, 0xDn (R153). -/
def execChanpress (ch : U4) (s : State) : Result := .next (s.startChannel (0xD#4 ++ ch))

/-- PITCHBEND, 0xEn (R154). -/
def execPitchbend (ch : U4) (s : State) : Result := .next (s.startChannel (0xE#4 ++ ch))

/-! ### 0xF0 to 0xF7 (R155 to R162) -/

/-- 0xF0: open an empty SysEx (R155). -/
def State.sysexStart (s : State) : State :=
  let s := s.preempt 0xF0#8
  { s with mp := { s.mp with sx := [], mode := .sysex } }

/-- 0xF4: undefined system common (R159). -/
def State.undefF4 (s : State) : State := (s.preempt 0xF4#8).diag .undefined 0xF4#32

/-- 0xF5: bus-select when CFG enables it, otherwise undefined (R160). -/
def State.busselF5 (s : State) : State :=
  let s := s.preempt 0xF5#8
  if busSelectEn s.cfg = true then s.awaitData 0xF5#8 else s.diag .undefined 0xF5#32

/-- 0xF6: emitted on its status byte (R161). -/
def State.tunereq (s : State) : State :=
  let s := s.preempt 0xF6#8
  s.deliver (.tuneRequest s.group)

/-- 0xF7: end of SysEx (R162). -/
def State.eox (s : State) : State :=
  let s := s.preempt 0xF7#8
  match s.mp.mode with
  | .sysex =>
    let s := s.deliver (.sysEx7 s.group s.mp.sx)
    { s with mp := { s.mp with sx := [], mode := .idle } }
  | .sxdiscard => { s with mp := { s.mp with mode := .idle } }
  | .idle | .data => s.diag .orphanEox 0xF7#32

/-- SYSEX_START, 0xF0 (R155). -/
def execSysexStart (s : State) : Result := .next s.sysexStart

/-- MTC_QF, 0xF1 (R156). -/
def execMtcQf (s : State) : Result := .next ((s.preempt 0xF1#8).awaitData 0xF1#8)

/-- SONGPOS, 0xF2 (R157). -/
def execSongpos (s : State) : Result := .next ((s.preempt 0xF2#8).awaitData 0xF2#8)

/-- SONGSEL, 0xF3 (R158). -/
def execSongsel (s : State) : Result := .next ((s.preempt 0xF3#8).awaitData 0xF3#8)

/-- UNDEF_F4, 0xF4 (R159). -/
def execUndefF4 (s : State) : Result := .next s.undefF4

/-- BUSSEL_F5, 0xF5 (R160). -/
def execBusselF5 (s : State) : Result := .next s.busselF5

/-- TUNEREQ, 0xF6 (R161). -/
def execTunereq (s : State) : Result := .next s.tunereq

/-- EOX, 0xF7 (R162). -/
def execEox (s : State) : Result := .next s.eox

/-! ### Real-time bytes (R163 to R170): MP state is untouched -/

/-- CLOCK, 0xF8 (R163). -/
def execClock (s : State) : Result := .next (s.deliver (.timingClock s.group))

/-- UNDEF_F9, 0xF9 (R164). -/
def execUndefF9 (s : State) : Result := .next (s.diag .undefined 0xF9#32)

/-- START, 0xFA (R165). -/
def execRtStart (s : State) : Result := .next (s.deliver (.start s.group))

/-- CONTINUE, 0xFB (R166). -/
def execRtContinue (s : State) : Result := .next (s.deliver (.contin s.group))

/-- STOP, 0xFC (R167). -/
def execRtStop (s : State) : Result := .next (s.deliver (.stop s.group))

/-- UNDEF_FD, 0xFD (R168). -/
def execUndefFd (s : State) : Result := .next (s.diag .undefined 0xFD#32)

/-- ACTSENSE, 0xFE (R169). -/
def execActsense (s : State) : Result := .next (s.deliver (.activeSensing s.group))

/-- SYSRESET, 0xFF: an event, and no reset of the block (R170, R392). -/
def execSysreset (s : State) : Result := .next (s.deliver (.systemReset s.group))

/-! ### Dispatch (R140) -/

/-- A status byte 0xF0 to 0xFF (R82, R140). -/
def execSystem (n : U4) (s : State) : Result :=
  match n.toNat with
  | 0x0 => execSysexStart s
  | 0x1 => execMtcQf s
  | 0x2 => execSongpos s
  | 0x3 => execSongsel s
  | 0x4 => execUndefF4 s
  | 0x5 => execBusselF5 s
  | 0x6 => execTunereq s
  | 0x7 => execEox s
  | 0x8 => execClock s
  | 0x9 => execUndefF9 s
  | 0xA => execRtStart s
  | 0xB => execRtContinue s
  | 0xC => execRtStop s
  | 0xD => execUndefFd s
  | 0xE => execActsense s
  | _ => execSysreset s

/-- A channel status byte 0x80 to 0xEF (R84, R140). -/
def execChannel (nib ch : U4) (s : State) : Result :=
  match nib.toNat with
  | 0x8 => execNoteoff ch s
  | 0x9 => execNoteon ch s
  | 0xA => execPolypress ch s
  | 0xB => execCc ch s
  | 0xC => execProgchg ch s
  | 0xD => execChanpress ch s
  | _ => execPitchbend ch s

/-- BYTE(b): exactly one path, chosen by b's class (R140). -/
def execByte (b : Byte) (s : State) : Result :=
  if isData b = true then .next (s.dataByte (low7 b))
  else if 0xF0#8 ≤ b then execSystem (b.extractLsb' 0 4) s
  else execChannel (b.extractLsb' 4 4) (b.extractLsb' 0 4) s

end Sys2Proof.Machine
end

