-- ==== Sys2Proof/Machine/Ump.lean ====
section
/-! DEFINITION. UMP messages without cross-packet state: MT 0x0, 0x1, 0x2, 0x4 and 0x6 to 0xF (42_ump_messages.md
rules R220 to R268). Word 0 is rebuilt from the instruction's own fields where a diagnostic carries it (R362). -/

namespace Sys2Proof.Machine

/-- `chk(...); deliver(E)`: a packet with a range-checked bit set is dropped with RANGE (R220, R363). -/
def State.deliverChecked (s : State) (w0 : Word) (bad : Bool) (e : Event) : State :=
  if bad = true then s.diag .range w0 else s.deliver e

/-! ### MT 0x0 (R221 to R224) -/

/-- U0.NOOP (R221). -/
def execU0Noop (g _x : U4) (_time : U16) (s : State) : Result := .next (s.deliver (.noOp g))

/-- U0.JRCLOCK (R222). The block keeps no clock. -/
def execU0Jrclock (g _x : U4) (time : U16) (s : State) : Result := .next (s.deliver (.jrClock g time))

/-- U0.JRTS (R223). -/
def execU0Jrts (g _x : U4) (time : U16) (s : State) : Result := .next (s.deliver (.jrTimestamp g time))

/-- U0.OTHER (R224). -/
def execU0Other (g st x : U4) (time : U16) (s : State) : Result :=
  .next (s.diag .unsupported (umpWord0 g st x time))

/-! ### MT 0x1 (R227 to R238) -/

/-- U1.MTC_QF (R227). -/
def execU1MtcQf (g : U4) (b1 b2 : Byte) (s : State) : Result :=
  .next (s.deliverChecked (umpWord1 g 0xF1#8 b1 b2) (bit7 b1) (.quarterFrame g (low7 b1)))

/-- U1.SONGPOS (R228): least significant half first (R66). -/
def execU1Songpos (g : U4) (b1 b2 : Byte) (s : State) : Result :=
  .next (s.deliverChecked (umpWord1 g 0xF2#8 b1 b2) (bit7 b1 || bit7 b2) (.songPosition g (num14 (low7 b2) (low7 b1))))

/-- U1.SONGSEL (R229). -/
def execU1Songsel (g : U4) (b1 b2 : Byte) (s : State) : Result :=
  .next (s.deliverChecked (umpWord1 g 0xF3#8 b1 b2) (bit7 b1) (.songSelect g (low7 b1)))

/-- U1.BUSSEL, when CFG enables it (R230). -/
def execU1Bussel (g : U4) (b1 b2 : Byte) (s : State) : Result :=
  .next (if busSelectEn s.cfg = true then
      s.deliverChecked (umpWord1 g 0xF5#8 b1 b2) (bit7 b1) (.busSelect g (low7 b1))
    else s.diag .unsupported (umpWord1 g 0xF5#8 b1 b2))

/-- U1.TUNEREQ (R231). -/
def execU1Tunereq (g : U4) (_b1 _b2 : Byte) (s : State) : Result := .next (s.deliver (.tuneRequest g))

/-- U1.CLOCK (R232). -/
def execU1Clock (g : U4) (_b1 _b2 : Byte) (s : State) : Result := .next (s.deliver (.timingClock g))

/-- U1.START (R233). -/
def execU1Start (g : U4) (_b1 _b2 : Byte) (s : State) : Result := .next (s.deliver (.start g))

/-- U1.CONTINUE (R234). -/
def execU1Continue (g : U4) (_b1 _b2 : Byte) (s : State) : Result := .next (s.deliver (.contin g))

/-- U1.STOP (R235). -/
def execU1Stop (g : U4) (_b1 _b2 : Byte) (s : State) : Result := .next (s.deliver (.stop g))

/-- U1.ACTSENSE (R236). -/
def execU1Actsense (g : U4) (_b1 _b2 : Byte) (s : State) : Result := .next (s.deliver (.activeSensing g))

/-- U1.SYSRESET (R237): no reset of the block (D41). -/
def execU1Sysreset (g : U4) (_b1 _b2 : Byte) (s : State) : Result := .next (s.deliver (.systemReset g))

/-- U1.OTHER (R238). -/
def execU1Other (g : U4) (status b1 b2 : Byte) (s : State) : Result :=
  .next (s.diag .unsupported (umpWord1 g status b1 b2))

/-! ### MT 0x2 (R241 to R248): no running status, no velocity-0 policy (D24) -/

/-- U2.NOTEOFF (R241). -/
def execU2Noteoff (g ch : U4) (b1 b2 : Byte) (s : State) : Result :=
  .next (s.deliverChecked (umpWord 0x2#4 g 0x8#4 ch b1 b2) (bit7 b1 || bit7 b2) (.noteOff1 g ch (low7 b1) (low7 b2)))

/-- U2.NOTEON (R242). -/
def execU2Noteon (g ch : U4) (b1 b2 : Byte) (s : State) : Result :=
  .next (s.deliverChecked (umpWord 0x2#4 g 0x9#4 ch b1 b2) (bit7 b1 || bit7 b2) (.noteOn1 g ch (low7 b1) (low7 b2)))

/-- U2.POLYPRESS (R243). -/
def execU2Polypress (g ch : U4) (b1 b2 : Byte) (s : State) : Result :=
  .next (s.deliverChecked (umpWord 0x2#4 g 0xA#4 ch b1 b2) (bit7 b1 || bit7 b2) (.polyPressure1 g ch (low7 b1) (low7 b2)))

/-- U2.CC (R244), routed through RA[g][ch] by deliver. -/
def execU2Cc (g ch : U4) (b1 b2 : Byte) (s : State) : Result :=
  .next (s.deliverChecked (umpWord 0x2#4 g 0xB#4 ch b1 b2) (bit7 b1 || bit7 b2) (.controlChange1 g ch (low7 b1) (low7 b2)))

/-- U2.PROGCHG (R245). -/
def execU2Progchg (g ch : U4) (b1 b2 : Byte) (s : State) : Result :=
  .next (s.deliverChecked (umpWord 0x2#4 g 0xC#4 ch b1 b2) (bit7 b1) (.programChange1 g ch (low7 b1)))

/-- U2.CHANPRESS (R246). -/
def execU2Chanpress (g ch : U4) (b1 b2 : Byte) (s : State) : Result :=
  .next (s.deliverChecked (umpWord 0x2#4 g 0xD#4 ch b1 b2) (bit7 b1) (.channelPressure1 g ch (low7 b1)))

/-- U2.PITCHBEND (R247). -/
def execU2Pitchbend (g ch : U4) (b1 b2 : Byte) (s : State) : Result :=
  .next (s.deliverChecked (umpWord 0x2#4 g 0xE#4 ch b1 b2) (bit7 b1 || bit7 b2) (.pitchBend1 g ch (num14 (low7 b2) (low7 b1))))

/-- U2.OTHER.0-7, opcodes 0x0 to 0x7 (R248). -/
def execU2Other07 (g : U4) (op : BitVec 3) (ch : U4) (b1 b2 : Byte) (s : State) : Result :=
  .next (s.diag .unsupported (umpWord 0x2#4 g (0#1 ++ op) ch b1 b2))

/-- U2.OTHER.F, opcode 0xF (R248). -/
def execU2OtherF (g ch : U4) (b1 b2 : Byte) (s : State) : Result :=
  .next (s.diag .unsupported (umpWord 0x2#4 g 0xF#4 ch b1 b2))

/-! ### MT 0x4 (R251 to R266): values at their MIDI-2 widths (R250) -/

/-- The parameter number of an MT 0x4 controller, num14(bank, index) (R253). -/
def bankIndex (b1 b2 : Byte) : U14 := num14 (low7 b1) (low7 b2)

/-- A two's-complement delta as the operation and amount of a parameter event (R255). -/
def relativeEvent (g ch : U4) (kind : ParamKind) (param : U14) (w1 : Word) : Event :=
  if w1.getLsbD 31 = false then .paramNumber g ch kind param .inc (.v32 w1)
  else .paramNumber g ch kind param .dec (.v32 (-w1))

/-- The event of a MIDI-2 program change: with the bank-valid bit clear the bank is recorded as 0 (R263, D42). -/
def programEvent (g ch : U4) (b2 : Byte) (w1 : Word) : Event :=
  if b2.getLsbD 0 = true then
    .programChange2 g ch (w1.extractLsb' 24 7) true (w1.extractLsb' 8 7) (w1.extractLsb' 0 7)
  else .programChange2 g ch (w1.extractLsb' 24 7) false 0#7 0#7

/-- The range check of a MIDI-2 program change: the bank's bits only when bankValid is 1 (R263). -/
def programBad (b2 : Byte) (w1 : Word) : Bool :=
  w1.getLsbD 31 || (b2.getLsbD 0 && (w1.getLsbD 15 || w1.getLsbD 7))

/-- U4.PNRC, registered per-note controller (R251). -/
def execU4Pnrc (g ch : U4) (b1 b2 : Byte) (w1 : Word) (s : State) : Result :=
  .next (s.deliverChecked (umpWord 0x4#4 g 0x0#4 ch b1 b2) (bit7 b1)
    (.perNoteController g ch (low7 b1) true b2 w1))

/-- U4.PNAC, assignable per-note controller (R252). -/
def execU4Pnac (g ch : U4) (b1 b2 : Byte) (w1 : Word) (s : State) : Result :=
  .next (s.deliverChecked (umpWord 0x4#4 g 0x1#4 ch b1 b2) (bit7 b1)
    (.perNoteController g ch (low7 b1) false b2 w1))

/-- U4.RC, registered controller (R253); it bypasses the RA (R325). -/
def execU4Rc (g ch : U4) (b1 b2 : Byte) (w1 : Word) (s : State) : Result :=
  .next (s.deliverChecked (umpWord 0x4#4 g 0x2#4 ch b1 b2) (bit7 b1 || bit7 b2)
    (.paramNumber g ch .rpn (bankIndex b1 b2) .abs (.v32 w1)))

/-- U4.AC, assignable controller (R254). -/
def execU4Ac (g ch : U4) (b1 b2 : Byte) (w1 : Word) (s : State) : Result :=
  .next (s.deliverChecked (umpWord 0x4#4 g 0x3#4 ch b1 b2) (bit7 b1 || bit7 b2)
    (.paramNumber g ch .nrpn (bankIndex b1 b2) .abs (.v32 w1)))

/-- U4.RRC, relative registered controller (R255). -/
def execU4Rrc (g ch : U4) (b1 b2 : Byte) (w1 : Word) (s : State) : Result :=
  .next (s.deliverChecked (umpWord 0x4#4 g 0x4#4 ch b1 b2) (bit7 b1 || bit7 b2)
    (relativeEvent g ch .rpn (bankIndex b1 b2) w1))

/-- U4.RAC, relative assignable controller (R256). -/
def execU4Rac (g ch : U4) (b1 b2 : Byte) (w1 : Word) (s : State) : Result :=
  .next (s.deliverChecked (umpWord 0x4#4 g 0x5#4 ch b1 b2) (bit7 b1 || bit7 b2)
    (relativeEvent g ch .nrpn (bankIndex b1 b2) w1))

/-- U4.PNPB, per-note pitch-bend (R257). -/
def execU4Pnpb (g ch : U4) (b1 b2 : Byte) (w1 : Word) (s : State) : Result :=
  .next (s.deliverChecked (umpWord 0x4#4 g 0x6#4 ch b1 b2) (bit7 b1)
    (.perNotePitchBend g ch (low7 b1) w1))

/-- U4.OP7, reserved (R258). -/
def execU4Op7 (g ch : U4) (b1 b2 : Byte) (_w1 : Word) (s : State) : Result :=
  .next (s.diag .unsupported (umpWord 0x4#4 g 0x7#4 ch b1 b2))

/-- U4.NOTEOFF (R259). -/
def execU4Noteoff (g ch : U4) (b1 b2 : Byte) (w1 : Word) (s : State) : Result :=
  .next (s.deliverChecked (umpWord 0x4#4 g 0x8#4 ch b1 b2) (bit7 b1)
    (.noteOff2 g ch (low7 b1) b2 (w1.extractLsb' 16 16) (w1.extractLsb' 0 16)))

/-- U4.NOTEON (R260): velocity 0 stays a note-on (D24). -/
def execU4Noteon (g ch : U4) (b1 b2 : Byte) (w1 : Word) (s : State) : Result :=
  .next (s.deliverChecked (umpWord 0x4#4 g 0x9#4 ch b1 b2) (bit7 b1)
    (.noteOn2 g ch (low7 b1) b2 (w1.extractLsb' 16 16) (w1.extractLsb' 0 16)))

/-- U4.POLYPRESS (R261). -/
def execU4Polypress (g ch : U4) (b1 b2 : Byte) (w1 : Word) (s : State) : Result :=
  .next (s.deliverChecked (umpWord 0x4#4 g 0xA#4 ch b1 b2) (bit7 b1)
    (.polyPressure2 g ch (low7 b1) w1))

/-- U4.CC (R262), passed through the RA unchanged (R310). -/
def execU4Cc (g ch : U4) (b1 b2 : Byte) (w1 : Word) (s : State) : Result :=
  .next (s.deliverChecked (umpWord 0x4#4 g 0xB#4 ch b1 b2) (bit7 b1)
    (.controlChange2 g ch (low7 b1) w1))

/-- U4.PROGCHG (R263). -/
def execU4Progchg (g ch : U4) (b1 b2 : Byte) (w1 : Word) (s : State) : Result :=
  .next (s.deliverChecked (umpWord 0x4#4 g 0xC#4 ch b1 b2) (programBad b2 w1)
    (programEvent g ch b2 w1))

/-- U4.CHANPRESS (R264), never range-checked. -/
def execU4Chanpress (g ch : U4) (_b1 _b2 : Byte) (w1 : Word) (s : State) : Result := .next (s.deliver (.channelPressure2 g ch w1))

/-- U4.PITCHBEND (R265), never range-checked. -/
def execU4Pitchbend (g ch : U4) (_b1 _b2 : Byte) (w1 : Word) (s : State) : Result := .next (s.deliver (.pitchBend2 g ch w1))

/-- U4.PNMGMT, per-note management (R266). -/
def execU4Pnmgmt (g ch : U4) (b1 b2 : Byte) (_w1 : Word) (s : State) : Result :=
  .next (s.deliverChecked (umpWord 0x4#4 g 0xF#4 ch b1 b2) (bit7 b1)
    (.perNoteManagement g ch (low7 b1) (b2.getLsbD 1) (b2.getLsbD 0)))

/-! ### MT 0x6 to 0xF (R268) -/

/-- U6 (R268). -/
def execU6 (g : U4) (r : BitVec 24) (s : State) : Result :=
  .next (s.diag .unsupported (umpWordR 0x6#4 g r))

/-- U7 (R268). -/
def execU7 (g : U4) (r : BitVec 24) (s : State) : Result :=
  .next (s.diag .unsupported (umpWordR 0x7#4 g r))

/-- U8 (R268). -/
def execU8 (g : U4) (r : BitVec 24) (_w1 : Word) (s : State) : Result :=
  .next (s.diag .unsupported (umpWordR 0x8#4 g r))

/-- U9 (R268). -/
def execU9 (g : U4) (r : BitVec 24) (_w1 : Word) (s : State) : Result :=
  .next (s.diag .unsupported (umpWordR 0x9#4 g r))

/-- UA (R268). -/
def execUA (g : U4) (r : BitVec 24) (_w1 : Word) (s : State) : Result :=
  .next (s.diag .unsupported (umpWordR 0xA#4 g r))

/-- UB (R268). -/
def execUB (g : U4) (r : BitVec 24) (_w1 _w2 : Word) (s : State) : Result :=
  .next (s.diag .unsupported (umpWordR 0xB#4 g r))

/-- UC (R268). -/
def execUC (g : U4) (r : BitVec 24) (_w1 _w2 : Word) (s : State) : Result :=
  .next (s.diag .unsupported (umpWordR 0xC#4 g r))

/-- UD (R268). -/
def execUD (g : U4) (r : BitVec 24) (_w1 _w2 _w3 : Word) (s : State) : Result :=
  .next (s.diag .unsupported (umpWordR 0xD#4 g r))

/-- UE (R268). -/
def execUE (g : U4) (r : BitVec 24) (_w1 _w2 _w3 : Word) (s : State) : Result :=
  .next (s.diag .unsupported (umpWordR 0xE#4 g r))

/-- UF (R268). -/
def execUF (g : U4) (r : BitVec 24) (_w1 _w2 _w3 : Word) (s : State) : Result :=
  .next (s.diag .unsupported (umpWordR 0xF#4 g r))

end Sys2Proof.Machine
end

