-- ==== Sys2Proof/Machine/UmpSysex.lean ====
section
/-! DEFINITION. SysEx7 and SysEx8 reassembly, MT 0x3 and 0x5 (43_ump_sysex.md rules R270 to R285). A packet that fails
a check of R270 or R280 is dropped with RANGE before its buffer is looked at (R363, R367). -/

namespace Sys2Proof.Machine

/-! ### SysEx7 -/

/-- A whole message in one packet; an open buffer is left as it is (R271). -/
def State.sx7Complete (s : State) (g : U4) (bytes : List U7) : State :=
  if exceedsMax s.sysexMax bytes.length = true then s.overflowDiag else s.deliver (.sysEx7 g bytes)

/-- Open the group's buffer; a stale one is discarded silently (R272, D18). -/
def State.sx7Start (s : State) (g : U4) (bytes : List U7) : State :=
  let s := s.setSx7 g none
  if exceedsMax s.sysexMax bytes.length = true then s.overflowDiag else s.setSx7 g (some bytes)

/-- Extend the group's buffer (R273). -/
def State.sx7Continue (s : State) (w0 : Word) (g : U4) (bytes : List U7) : State :=
  match s.sx7At g with
  | none => s.diag .sysexSequence w0
  | some buf =>
    if exceedsMax s.sysexMax (buf.length + bytes.length) = true then s.overflowDiag.setSx7 g none
    else s.setSx7 g (some (buf ++ bytes))

/-- Close the group's buffer and emit the message (R274). -/
def State.sx7End (s : State) (w0 : Word) (g : U4) (bytes : List U7) : State :=
  match s.sx7At g with
  | none => s.diag .sysexSequence w0
  | some buf =>
    let s := s.setSx7 g none
    if exceedsMax s.sysexMax (buf.length + bytes.length) = true then s.overflowDiag
    else s.deliver (.sysEx7 g (buf ++ bytes))

/-- U3.COMPLETE (R270, R271). -/
def execU3Complete (g n : U4) (b1 b2 : Byte) (w1 : Word) (s : State) : Result :=
  match sx7Payload n b1 b2 w1 with
  | none => .next (s.diag .range (umpWord 0x3#4 g 0x0#4 n b1 b2))
  | some bytes => .next (s.sx7Complete g bytes)

/-- U3.START (R270, R272). -/
def execU3Start (g n : U4) (b1 b2 : Byte) (w1 : Word) (s : State) : Result :=
  match sx7Payload n b1 b2 w1 with
  | none => .next (s.diag .range (umpWord 0x3#4 g 0x1#4 n b1 b2))
  | some bytes => .next (s.sx7Start g bytes)

/-- U3.CONTINUE (R270, R273). -/
def execU3Continue (g n : U4) (b1 b2 : Byte) (w1 : Word) (s : State) : Result :=
  match sx7Payload n b1 b2 w1 with
  | none => .next (s.diag .range (umpWord 0x3#4 g 0x2#4 n b1 b2))
  | some bytes => .next (s.sx7Continue (umpWord 0x3#4 g 0x2#4 n b1 b2) g bytes)

/-- U3.END (R270, R274). -/
def execU3End (g n : U4) (b1 b2 : Byte) (w1 : Word) (s : State) : Result :=
  match sx7Payload n b1 b2 w1 with
  | none => .next (s.diag .range (umpWord 0x3#4 g 0x3#4 n b1 b2))
  | some bytes => .next (s.sx7End (umpWord 0x3#4 g 0x3#4 n b1 b2) g bytes)

/-- U3.OTHER (R275): before the numBytes check. -/
def execU3Other (g st n : U4) (b1 b2 : Byte) (_w1 : Word) (s : State) : Result :=
  .next (s.diag .unsupported (umpWord 0x3#4 g st n b1 b2))

/-! ### SysEx8 -/

/-- A whole message in one packet (R281). -/
def State.sx8Complete (s : State) (g : U4) (stream : Byte) (bytes : List Byte) : State :=
  if exceedsMax s.sysexMax bytes.length = true then s.overflowDiag else s.deliver (.sysEx8 g stream bytes)

/-- Open the group's buffer, whatever the stale one's stream was (R282). -/
def State.sx8Start (s : State) (g : U4) (stream : Byte) (bytes : List Byte) : State :=
  let s := s.setSx8 g none
  if exceedsMax s.sysexMax bytes.length = true then s.overflowDiag else s.setSx8 g (some ⟨stream, bytes⟩)

/-- Extend the group's buffer; a packet of another stream is dropped and the buffer kept (R283). -/
def State.sx8Continue (s : State) (w0 : Word) (g : U4) (stream : Byte) (bytes : List Byte) : State :=
  match s.sx8At g with
  | none => s.diag .sysexSequence w0
  | some buf =>
    if stream ≠ buf.stream then s.diag .sysexStream w0
    else if exceedsMax s.sysexMax (buf.payload.length + bytes.length) = true then s.overflowDiag.setSx8 g none
    else s.setSx8 g (some ⟨buf.stream, buf.payload ++ bytes⟩)

/-- Close the group's buffer and emit the message (R284). -/
def State.sx8End (s : State) (w0 : Word) (g : U4) (stream : Byte) (bytes : List Byte) : State :=
  match s.sx8At g with
  | none => s.diag .sysexSequence w0
  | some buf =>
    if stream ≠ buf.stream then s.diag .sysexStream w0
    else
      let s := s.setSx8 g none
      if exceedsMax s.sysexMax (buf.payload.length + bytes.length) = true then s.overflowDiag
      else s.deliver (.sysEx8 g buf.stream (buf.payload ++ bytes))

/-- U5.COMPLETE (R280, R281). `b1` is the stream identifier. -/
def execU5Complete (g n : U4) (b1 b2 : Byte) (w1 w2 w3 : Word) (s : State) : Result :=
  match sx8Payload n b2 w1 w2 w3 with
  | none => .next (s.diag .range (umpWord 0x5#4 g 0x0#4 n b1 b2))
  | some bytes => .next (s.sx8Complete g b1 bytes)

/-- U5.START (R280, R282). -/
def execU5Start (g n : U4) (b1 b2 : Byte) (w1 w2 w3 : Word) (s : State) : Result :=
  match sx8Payload n b2 w1 w2 w3 with
  | none => .next (s.diag .range (umpWord 0x5#4 g 0x1#4 n b1 b2))
  | some bytes => .next (s.sx8Start g b1 bytes)

/-- U5.CONTINUE (R280, R283). -/
def execU5Continue (g n : U4) (b1 b2 : Byte) (w1 w2 w3 : Word) (s : State) : Result :=
  match sx8Payload n b2 w1 w2 w3 with
  | none => .next (s.diag .range (umpWord 0x5#4 g 0x2#4 n b1 b2))
  | some bytes => .next (s.sx8Continue (umpWord 0x5#4 g 0x2#4 n b1 b2) g b1 bytes)

/-- U5.END (R280, R284). -/
def execU5End (g n : U4) (b1 b2 : Byte) (w1 w2 w3 : Word) (s : State) : Result :=
  match sx8Payload n b2 w1 w2 w3 with
  | none => .next (s.diag .range (umpWord 0x5#4 g 0x3#4 n b1 b2))
  | some bytes => .next (s.sx8End (umpWord 0x5#4 g 0x3#4 n b1 b2) g b1 bytes)

/-- U5.OTHER, the Mixed Data Set statuses among them (R285). -/
def execU5Other (g st n : U4) (b1 b2 : Byte) (_w1 _w2 _w3 : Word) (s : State) : Result :=
  .next (s.diag .unsupported (umpWord 0x5#4 g st n b1 b2))

end Sys2Proof.Machine
end

