-- ==== Sys2Proof/Machine/Transactions.lean ====
section
/-! DEFINITION. The transactions (30_encoding.md R80): the packet dispatch (41_ump_framer.md R201 to R204 and the
dispatch rules R226, R240, R250, R270, R280), WORD, PACKET, and the control transactions (45_control.md R350 to
R352). BYTE is in Machine/Midi1.lean. -/

namespace Sys2Proof.Machine

/-! ### Packet dispatch -/

/-- MT 0x0 by status (R221 to R224). -/
def runU0 (w0 : Word) (s : State) : Result :=
  match (stOf w0).toNat with
  | 0x0 => execU0Noop (grpOf w0) (chOf w0) (timeOf w0) s
  | 0x1 => execU0Jrclock (grpOf w0) (chOf w0) (timeOf w0) s
  | 0x2 => execU0Jrts (grpOf w0) (chOf w0) (timeOf w0) s
  | _ => execU0Other (grpOf w0) (stOf w0) (chOf w0) (timeOf w0) s

/-- MT 0x1 by status byte (R226). -/
def runU1 (w0 : Word) (s : State) : Result :=
  match (statusOf w0).toNat with
  | 0xF1 => execU1MtcQf (grpOf w0) (b1Of w0) (b2Of w0) s
  | 0xF2 => execU1Songpos (grpOf w0) (b1Of w0) (b2Of w0) s
  | 0xF3 => execU1Songsel (grpOf w0) (b1Of w0) (b2Of w0) s
  | 0xF5 => execU1Bussel (grpOf w0) (b1Of w0) (b2Of w0) s
  | 0xF6 => execU1Tunereq (grpOf w0) (b1Of w0) (b2Of w0) s
  | 0xF8 => execU1Clock (grpOf w0) (b1Of w0) (b2Of w0) s
  | 0xFA => execU1Start (grpOf w0) (b1Of w0) (b2Of w0) s
  | 0xFB => execU1Continue (grpOf w0) (b1Of w0) (b2Of w0) s
  | 0xFC => execU1Stop (grpOf w0) (b1Of w0) (b2Of w0) s
  | 0xFE => execU1Actsense (grpOf w0) (b1Of w0) (b2Of w0) s
  | 0xFF => execU1Sysreset (grpOf w0) (b1Of w0) (b2Of w0) s
  | _ => execU1Other (grpOf w0) (statusOf w0) (b1Of w0) (b2Of w0) s

/-- MT 0x2 by opcode (R240). -/
def runU2 (w0 : Word) (s : State) : Result :=
  match (stOf w0).toNat with
  | 0x8 => execU2Noteoff (grpOf w0) (chOf w0) (b1Of w0) (b2Of w0) s
  | 0x9 => execU2Noteon (grpOf w0) (chOf w0) (b1Of w0) (b2Of w0) s
  | 0xA => execU2Polypress (grpOf w0) (chOf w0) (b1Of w0) (b2Of w0) s
  | 0xB => execU2Cc (grpOf w0) (chOf w0) (b1Of w0) (b2Of w0) s
  | 0xC => execU2Progchg (grpOf w0) (chOf w0) (b1Of w0) (b2Of w0) s
  | 0xD => execU2Chanpress (grpOf w0) (chOf w0) (b1Of w0) (b2Of w0) s
  | 0xE => execU2Pitchbend (grpOf w0) (chOf w0) (b1Of w0) (b2Of w0) s
  | 0xF => execU2OtherF (grpOf w0) (chOf w0) (b1Of w0) (b2Of w0) s
  | _ => execU2Other07 (grpOf w0) (w0.extractLsb' 20 3) (chOf w0) (b1Of w0) (b2Of w0) s

/-- MT 0x3 by status, UNSUPPORTED first (R270, R275). -/
def runU3 (w0 w1 : Word) (s : State) : Result :=
  match (stOf w0).toNat with
  | 0x0 => execU3Complete (grpOf w0) (chOf w0) (b1Of w0) (b2Of w0) w1 s
  | 0x1 => execU3Start (grpOf w0) (chOf w0) (b1Of w0) (b2Of w0) w1 s
  | 0x2 => execU3Continue (grpOf w0) (chOf w0) (b1Of w0) (b2Of w0) w1 s
  | 0x3 => execU3End (grpOf w0) (chOf w0) (b1Of w0) (b2Of w0) w1 s
  | _ => execU3Other (grpOf w0) (stOf w0) (chOf w0) (b1Of w0) (b2Of w0) w1 s

/-- MT 0x4 by opcode (R250). -/
def runU4 (w0 w1 : Word) (s : State) : Result :=
  match (stOf w0).toNat with
  | 0x0 => execU4Pnrc (grpOf w0) (chOf w0) (b1Of w0) (b2Of w0) w1 s
  | 0x1 => execU4Pnac (grpOf w0) (chOf w0) (b1Of w0) (b2Of w0) w1 s
  | 0x2 => execU4Rc (grpOf w0) (chOf w0) (b1Of w0) (b2Of w0) w1 s
  | 0x3 => execU4Ac (grpOf w0) (chOf w0) (b1Of w0) (b2Of w0) w1 s
  | 0x4 => execU4Rrc (grpOf w0) (chOf w0) (b1Of w0) (b2Of w0) w1 s
  | 0x5 => execU4Rac (grpOf w0) (chOf w0) (b1Of w0) (b2Of w0) w1 s
  | 0x6 => execU4Pnpb (grpOf w0) (chOf w0) (b1Of w0) (b2Of w0) w1 s
  | 0x7 => execU4Op7 (grpOf w0) (chOf w0) (b1Of w0) (b2Of w0) w1 s
  | 0x8 => execU4Noteoff (grpOf w0) (chOf w0) (b1Of w0) (b2Of w0) w1 s
  | 0x9 => execU4Noteon (grpOf w0) (chOf w0) (b1Of w0) (b2Of w0) w1 s
  | 0xA => execU4Polypress (grpOf w0) (chOf w0) (b1Of w0) (b2Of w0) w1 s
  | 0xB => execU4Cc (grpOf w0) (chOf w0) (b1Of w0) (b2Of w0) w1 s
  | 0xC => execU4Progchg (grpOf w0) (chOf w0) (b1Of w0) (b2Of w0) w1 s
  | 0xD => execU4Chanpress (grpOf w0) (chOf w0) (b1Of w0) (b2Of w0) w1 s
  | 0xE => execU4Pitchbend (grpOf w0) (chOf w0) (b1Of w0) (b2Of w0) w1 s
  | _ => execU4Pnmgmt (grpOf w0) (chOf w0) (b1Of w0) (b2Of w0) w1 s

/-- MT 0x5 by status, UNSUPPORTED first (R280, R285). -/
def runU5 (w0 w1 w2 w3 : Word) (s : State) : Result :=
  match (stOf w0).toNat with
  | 0x0 => execU5Complete (grpOf w0) (chOf w0) (b1Of w0) (b2Of w0) w1 w2 w3 s
  | 0x1 => execU5Start (grpOf w0) (chOf w0) (b1Of w0) (b2Of w0) w1 w2 w3 s
  | 0x2 => execU5Continue (grpOf w0) (chOf w0) (b1Of w0) (b2Of w0) w1 w2 w3 s
  | 0x3 => execU5End (grpOf w0) (chOf w0) (b1Of w0) (b2Of w0) w1 w2 w3 s
  | _ => execU5Other (grpOf w0) (stOf w0) (chOf w0) (b1Of w0) (b2Of w0) w1 w2 w3 s

/-- A packet of the right length, by message type (R204). -/
def runPacket (w0 w1 w2 w3 : Word) (s : State) : Result :=
  match (mtOf w0).toNat with
  | 0x0 => runU0 w0 s
  | 0x1 => runU1 w0 s
  | 0x2 => runU2 w0 s
  | 0x3 => runU3 w0 w1 s
  | 0x4 => runU4 w0 w1 s
  | 0x5 => runU5 w0 w1 w2 w3 s
  | 0x6 => execU6 (grpOf w0) (lowOf w0) s
  | 0x7 => execU7 (grpOf w0) (lowOf w0) s
  | 0x8 => execU8 (grpOf w0) (lowOf w0) w1 s
  | 0x9 => execU9 (grpOf w0) (lowOf w0) w1 s
  | 0xA => execUA (grpOf w0) (lowOf w0) w1 s
  | 0xB => execUB (grpOf w0) (lowOf w0) w1 w2 s
  | 0xC => execUC (grpOf w0) (lowOf w0) w1 w2 s
  | 0xD => execUD (grpOf w0) (lowOf w0) w1 w2 w3 s
  | 0xE => execUE (grpOf w0) (lowOf w0) w1 w2 w3 s
  | _ => execUF (grpOf w0) (lowOf w0) w1 w2 w3 s

/-- `packet(p)` on words w0 and `rest` (R201): dropped whole with LENGTH when the length is not that of the message
type (R202, R203). The framer of an invariant state never gives such a packet (log entry 3). -/
def packet (w0 : Word) (rest : List Word) (s : State) : Result :=
  if rest.length + 1 ≠ wc (mtOf w0) then .next (s.diag .length w0)
  else runPacket w0 (wordAt rest 0) (wordAt rest 1) (wordAt rest 2) s

/-! ### WORD, PACKET and the control transactions -/

/-- WORD, the word-serial framer (R200). -/
def execWord (w : Word) (s : State) : Result :=
  match s.wf.buf with
  | [] =>
    if wc (mtOf w) = 1 then packet w [] s
    else .next { s with wf := { buf := [w], need := wc (mtOf w) } }
  | w0 :: rest =>
    if (w0 :: rest ++ [w]).length = s.wf.need then
      packet w0 (rest ++ [w]) { s with wf := { buf := [], need := 0 } }
    else .next { s with wf := { s.wf with buf := w0 :: rest ++ [w] } }

/-- PACKET, a packet framed by the transport (R202, R203). -/
def execPacket (w0 : Word) (rest : List Word) (s : State) : Result := packet w0 rest s

/-- RESET: every element of R45 but CFG and OUT (R350, R391). The model's own fields are no part of it. -/
def execReset (s : State) : Result :=
  .next { s with mp := Mp.reset, wf := Wf.reset, up := Up.reset, ra := raReset }

/-- CONFIG(v): the writable bits from v, every other bit 0 (R41, R351). -/
def execConfig (v : Word) (s : State) : Result := .next { s with cfg := v &&& Config.cfgMask }

/-- TAG_RSVD.5 (R352). -/
def execTagRsvd5 (s : State) : Result := .next (s.diag .unsupported 5#32)

/-- TAG_RSVD.6 (R352). -/
def execTagRsvd6 (s : State) : Result := .next (s.diag .unsupported 6#32)

/-- TAG_RSVD.7 (R352). -/
def execTagRsvd7 (s : State) : Result := .next (s.diag .unsupported 7#32)

end Sys2Proof.Machine
end

