-- ==== Sys2Proof/Machine/Dispatch.lean ====
section
/-! DEFINITION. One arm per constructor of Instr: the meaning of every row of spec/opcode_table.json. -/

namespace Sys2Proof.Machine

def exec (i : Instr) (s : State) : Host.Outcome State Fault Refusal :=
  match i with
  | .byte b => Sys2Proof.Machine.execByte b s
  | .word w => Sys2Proof.Machine.execWord w s
  | .packet w0 rest => Sys2Proof.Machine.execPacket w0 rest s
  | .reset => Sys2Proof.Machine.execReset s
  | .config v => Sys2Proof.Machine.execConfig v s
  | .tagRsvd5 => Sys2Proof.Machine.execTagRsvd5 s
  | .tagRsvd6 => Sys2Proof.Machine.execTagRsvd6 s
  | .tagRsvd7 => Sys2Proof.Machine.execTagRsvd7 s
  | .dataRs v => Sys2Proof.Machine.execDataRs v s
  | .dataOrphan v => Sys2Proof.Machine.execDataOrphan v s
  | .dataData v => Sys2Proof.Machine.execDataData v s
  | .dataSysex v => Sys2Proof.Machine.execDataSysex v s
  | .dataSxdiscard v => Sys2Proof.Machine.execDataSxdiscard v s
  | .noteoff ch => Sys2Proof.Machine.execNoteoff ch s
  | .noteon ch => Sys2Proof.Machine.execNoteon ch s
  | .polypress ch => Sys2Proof.Machine.execPolypress ch s
  | .cc ch => Sys2Proof.Machine.execCc ch s
  | .progchg ch => Sys2Proof.Machine.execProgchg ch s
  | .chanpress ch => Sys2Proof.Machine.execChanpress ch s
  | .pitchbend ch => Sys2Proof.Machine.execPitchbend ch s
  | .sysexStart => Sys2Proof.Machine.execSysexStart s
  | .mtcQf => Sys2Proof.Machine.execMtcQf s
  | .songpos => Sys2Proof.Machine.execSongpos s
  | .songsel => Sys2Proof.Machine.execSongsel s
  | .undefF4 => Sys2Proof.Machine.execUndefF4 s
  | .busselF5 => Sys2Proof.Machine.execBusselF5 s
  | .tunereq => Sys2Proof.Machine.execTunereq s
  | .eox => Sys2Proof.Machine.execEox s
  | .clock => Sys2Proof.Machine.execClock s
  | .undefF9 => Sys2Proof.Machine.execUndefF9 s
  | .rtStart => Sys2Proof.Machine.execRtStart s
  | .rtContinue => Sys2Proof.Machine.execRtContinue s
  | .rtStop => Sys2Proof.Machine.execRtStop s
  | .undefFd => Sys2Proof.Machine.execUndefFd s
  | .actsense => Sys2Proof.Machine.execActsense s
  | .sysreset => Sys2Proof.Machine.execSysreset s
  | .u0Noop g x time => Sys2Proof.Machine.execU0Noop g x time s
  | .u0Jrclock g x time => Sys2Proof.Machine.execU0Jrclock g x time s
  | .u0Jrts g x time => Sys2Proof.Machine.execU0Jrts g x time s
  | .u0Other g st x time => Sys2Proof.Machine.execU0Other g st x time s
  | .u1MtcQf g b1 b2 => Sys2Proof.Machine.execU1MtcQf g b1 b2 s
  | .u1Songpos g b1 b2 => Sys2Proof.Machine.execU1Songpos g b1 b2 s
  | .u1Songsel g b1 b2 => Sys2Proof.Machine.execU1Songsel g b1 b2 s
  | .u1Bussel g b1 b2 => Sys2Proof.Machine.execU1Bussel g b1 b2 s
  | .u1Tunereq g b1 b2 => Sys2Proof.Machine.execU1Tunereq g b1 b2 s
  | .u1Clock g b1 b2 => Sys2Proof.Machine.execU1Clock g b1 b2 s
  | .u1Start g b1 b2 => Sys2Proof.Machine.execU1Start g b1 b2 s
  | .u1Continue g b1 b2 => Sys2Proof.Machine.execU1Continue g b1 b2 s
  | .u1Stop g b1 b2 => Sys2Proof.Machine.execU1Stop g b1 b2 s
  | .u1Actsense g b1 b2 => Sys2Proof.Machine.execU1Actsense g b1 b2 s
  | .u1Sysreset g b1 b2 => Sys2Proof.Machine.execU1Sysreset g b1 b2 s
  | .u1Other g status b1 b2 => Sys2Proof.Machine.execU1Other g status b1 b2 s
  | .u2Noteoff g ch b1 b2 => Sys2Proof.Machine.execU2Noteoff g ch b1 b2 s
  | .u2Noteon g ch b1 b2 => Sys2Proof.Machine.execU2Noteon g ch b1 b2 s
  | .u2Polypress g ch b1 b2 => Sys2Proof.Machine.execU2Polypress g ch b1 b2 s
  | .u2Cc g ch b1 b2 => Sys2Proof.Machine.execU2Cc g ch b1 b2 s
  | .u2Progchg g ch b1 b2 => Sys2Proof.Machine.execU2Progchg g ch b1 b2 s
  | .u2Chanpress g ch b1 b2 => Sys2Proof.Machine.execU2Chanpress g ch b1 b2 s
  | .u2Pitchbend g ch b1 b2 => Sys2Proof.Machine.execU2Pitchbend g ch b1 b2 s
  | .u2Other07 g op ch b1 b2 => Sys2Proof.Machine.execU2Other07 g op ch b1 b2 s
  | .u2OtherF g ch b1 b2 => Sys2Proof.Machine.execU2OtherF g ch b1 b2 s
  | .u3Complete g n b1 b2 w1 => Sys2Proof.Machine.execU3Complete g n b1 b2 w1 s
  | .u3Start g n b1 b2 w1 => Sys2Proof.Machine.execU3Start g n b1 b2 w1 s
  | .u3Continue g n b1 b2 w1 => Sys2Proof.Machine.execU3Continue g n b1 b2 w1 s
  | .u3End g n b1 b2 w1 => Sys2Proof.Machine.execU3End g n b1 b2 w1 s
  | .u3Other g st n b1 b2 w1 => Sys2Proof.Machine.execU3Other g st n b1 b2 w1 s
  | .u4Pnrc g ch b1 b2 w1 => Sys2Proof.Machine.execU4Pnrc g ch b1 b2 w1 s
  | .u4Pnac g ch b1 b2 w1 => Sys2Proof.Machine.execU4Pnac g ch b1 b2 w1 s
  | .u4Rc g ch b1 b2 w1 => Sys2Proof.Machine.execU4Rc g ch b1 b2 w1 s
  | .u4Ac g ch b1 b2 w1 => Sys2Proof.Machine.execU4Ac g ch b1 b2 w1 s
  | .u4Rrc g ch b1 b2 w1 => Sys2Proof.Machine.execU4Rrc g ch b1 b2 w1 s
  | .u4Rac g ch b1 b2 w1 => Sys2Proof.Machine.execU4Rac g ch b1 b2 w1 s
  | .u4Pnpb g ch b1 b2 w1 => Sys2Proof.Machine.execU4Pnpb g ch b1 b2 w1 s
  | .u4Op7 g ch b1 b2 w1 => Sys2Proof.Machine.execU4Op7 g ch b1 b2 w1 s
  | .u4Noteoff g ch b1 b2 w1 => Sys2Proof.Machine.execU4Noteoff g ch b1 b2 w1 s
  | .u4Noteon g ch b1 b2 w1 => Sys2Proof.Machine.execU4Noteon g ch b1 b2 w1 s
  | .u4Polypress g ch b1 b2 w1 => Sys2Proof.Machine.execU4Polypress g ch b1 b2 w1 s
  | .u4Cc g ch b1 b2 w1 => Sys2Proof.Machine.execU4Cc g ch b1 b2 w1 s
  | .u4Progchg g ch b1 b2 w1 => Sys2Proof.Machine.execU4Progchg g ch b1 b2 w1 s
  | .u4Chanpress g ch b1 b2 w1 => Sys2Proof.Machine.execU4Chanpress g ch b1 b2 w1 s
  | .u4Pitchbend g ch b1 b2 w1 => Sys2Proof.Machine.execU4Pitchbend g ch b1 b2 w1 s
  | .u4Pnmgmt g ch b1 b2 w1 => Sys2Proof.Machine.execU4Pnmgmt g ch b1 b2 w1 s
  | .u5Complete g n b1 b2 w1 w2 w3 => Sys2Proof.Machine.execU5Complete g n b1 b2 w1 w2 w3 s
  | .u5Start g n b1 b2 w1 w2 w3 => Sys2Proof.Machine.execU5Start g n b1 b2 w1 w2 w3 s
  | .u5Continue g n b1 b2 w1 w2 w3 => Sys2Proof.Machine.execU5Continue g n b1 b2 w1 w2 w3 s
  | .u5End g n b1 b2 w1 w2 w3 => Sys2Proof.Machine.execU5End g n b1 b2 w1 w2 w3 s
  | .u5Other g st n b1 b2 w1 w2 w3 => Sys2Proof.Machine.execU5Other g st n b1 b2 w1 w2 w3 s
  | .u6 g r => Sys2Proof.Machine.execU6 g r s
  | .u7 g r => Sys2Proof.Machine.execU7 g r s
  | .u8 g r w1 => Sys2Proof.Machine.execU8 g r w1 s
  | .u9 g r w1 => Sys2Proof.Machine.execU9 g r w1 s
  | .uA g r w1 => Sys2Proof.Machine.execUA g r w1 s
  | .uB g r w1 w2 => Sys2Proof.Machine.execUB g r w1 w2 s
  | .uC g r w1 w2 => Sys2Proof.Machine.execUC g r w1 w2 s
  | .uD g r w1 w2 w3 => Sys2Proof.Machine.execUD g r w1 w2 w3 s
  | .uE g r w1 w2 w3 => Sys2Proof.Machine.execUE g r w1 w2 w3 s
  | .uF g r w1 w2 w3 => Sys2Proof.Machine.execUF g r w1 w2 w3 s
  | .raCc101 g ch v => Sys2Proof.Machine.execRaCc101 g ch v s
  | .raCc100 g ch v => Sys2Proof.Machine.execRaCc100 g ch v s
  | .raCc99 g ch v => Sys2Proof.Machine.execRaCc99 g ch v s
  | .raCc98 g ch v => Sys2Proof.Machine.execRaCc98 g ch v s
  | .raCc6 g ch v => Sys2Proof.Machine.execRaCc6 g ch v s
  | .raCc38 g ch v => Sys2Proof.Machine.execRaCc38 g ch v s
  | .raCc96 g ch v => Sys2Proof.Machine.execRaCc96 g ch v s
  | .raCc97 g ch v => Sys2Proof.Machine.execRaCc97 g ch v s
  | .raCc121 g ch v => Sys2Proof.Machine.execRaCc121 g ch v s
  | .raPass g ch ctrl v => Sys2Proof.Machine.execRaPass g ch ctrl v s

end Sys2Proof.Machine
end

