-- ==== Sys2Proof/Machine/Step.lean ====
section
/-! DEFINITION. One step: the block takes the next transaction presented and runs it (00_scope.md R7: one transaction
per step). With nothing presented it does nothing (R390, log entry 2). -/

namespace Sys2Proof.Machine

/-- One step of the block. -/
def step (s : State) : Host.Outcome State Fault Refusal :=
  match s.fetch with
  | none => .next s
  | some (t, s') => exec (decodeTxn t) s'

/-- `s` with the instruction of an opcode-table word presented as the very next transaction. -/
def State.withFetchWord (s : State) (nbits w : Nat) : State :=
  match tableCode nbits w with
  | some c => s.present c.present
  | none => s

end Sys2Proof.Machine
end

