-- ==== Sys2Proof/Safety.lean ====
section
/-! DEFINITION. The terms in which claims are stated: the invariant of the state (10_state.md R24 to R33, R40; 20_memory.md
R61), the start-of-run premises (70_reset_and_hazards.md R405), what preempt leaves (40_midi1_parser.md R147) as a table of
fields, what a complete message leaves, the first word of an instruction, runs of several instructions, and what counts as
a safe outcome. -/

namespace Sys2Proof.Machine

/-! ### Runs, and items appended -/

/-- Run instructions one after another, stopping at the first that does not answer a next state. -/
def execAll : List Instr → State → Result
  | [], s => .next s
  | i :: rest, s =>
    match exec i s with
    | .next t => execAll rest t
    | .fault r => .fault r
    | .refused r => .refused r

/-- The block's own outcome: it goes on (R360: "nothing stops it"). -/
def Answers (r : Result) : Prop := ∃ t, r = .next t

/-- `s` with items appended to OUT (R34). -/
def appended (s : State) (items : List Item) : State := { s with out := s.out ++ items }

/-! ### The first word of a packet -/

/-- Word 0 of a UMP instruction, the info word of its diagnostics (R362); 0 for an instruction of another format. -/
def word0 (i : Instr) : Word :=
  match encode i with
  | .ump w0 _ => w0
  | _ => 0

/-! ### What preempt leaves, field by field (R147) -/

/-- The item preempt appends. -/
def preemptItems (s : State) (b : Byte) : List Item :=
  match s.mp.mode with
  | .data => [.dg .truncated (s.mp.cur.setWidth 32)]
  | .sysex =>
    if b = 0xF7#8 then []
    else if s.cfg.getLsbD 3 = true then [.ev (.sysEx7 (s.cfg.extractLsb' 8 4) s.mp.sx)]
    else [.dg .sysexAborted (b.setWidth 32)]
  | .idle | .sxdiscard => []

/-- The mode preempt leaves. -/
def preemptMode (s : State) (b : Byte) : Mode :=
  match s.mp.mode with
  | .data | .idle => .idle
  | .sysex => if b = 0xF7#8 then .sysex else .idle
  | .sxdiscard => if b = 0xF7#8 then .sxdiscard else .idle

/-- The state preempt leaves: the MP fields and OUT change, nothing else. -/
def afterPreempt (s : State) (b : Byte) : State :=
  { s with
    mp :=
      { mode := preemptMode s b
        rs := if 0xF0#8 ≤ b ∧ s.cfg.getLsbD 2 = true then none else s.mp.rs
        cur := s.mp.cur
        k := if s.mp.mode = .data then 0 else s.mp.k
        d0 := s.mp.d0
        sx := if s.mp.mode = .sysex ∧ b ≠ 0xF7#8 then [] else s.mp.sx }
    out := s.out ++ preemptItems s b }

/-! ### A channel message from its status byte on (R141 to R154, R173) -/

/-- The item of a real-time byte, 0xF8 to 0xFF, in group g (R163 to R170). -/
def realTimeItem (g : U4) (b : Byte) : Item :=
  match b.toNat with
  | 0xF8 => .ev (.timingClock g)
  | 0xFA => .ev (.start g)
  | 0xFB => .ev (.contin g)
  | 0xFC => .ev (.stop g)
  | 0xFE => .ev (.activeSensing g)
  | 0xFF => .ev (.systemReset g)
  | _ => .dg .undefined (b.setWidth 32)

/-- The items of real-time bytes under CFG. -/
def realTimeItems (cfg : Word) (bs : List Byte) : List Item := bs.map (realTimeItem (cfg.extractLsb' 8 4))

/-- What the channel message `st d1`, or `st d1 d2`, leaves but for its own event: MP in IDLE with running status st, and
the items of preempt and of the real-time bytes `r1` after the status and `r2` before a second data byte. -/
def beforeEvent (s : State) (st : Byte) (d1 : U7) (r1 r2 : List Byte) : State :=
  { s with
    mp :=
      { mode := .idle
        rs := some st
        cur := st
        k := 0
        d0 := if need st = 2 then d1 else s.mp.d0
        sx := if s.mp.mode = .sysex then [] else s.mp.sx }
    out := s.out ++ preemptItems s st ++ realTimeItems s.cfg (if need st = 2 then r1 ++ r2 else r1) }

/-- `r` is what `u` answers when a message of status st with data d1, d2 is complete: `u` with the message's event
appended; or, for a control change, exactly what its controller's row answers on `u` (R146, R151, R310). -/
def MessageDone (u : State) (st : Byte) (d1 d2 : U7) (r : Result) : Prop :=
  (st.extractLsb' 4 4 ≠ 0xB#4 → ∃ e, messageEvent u.cfg st d1 d2 = some e ∧ r = .next (appended u [.ev e])) ∧
  (st.extractLsb' 4 4 = 0xB#4 → r = exec (decodeCc (u.cfg.extractLsb' 8 4) (st.extractLsb' 0 4) d1 d2) u)

/-! ### Which DATA row a state selects -/

/-- The table's words "selected by state" (R141 to R145). -/
def Selected (s : State) : DataRow → Prop
  | .rs => s.mp.mode = .idle ∧ s.mp.rs ≠ none
  | .orphan => s.mp.mode = .idle ∧ s.mp.rs = none
  | .data => s.mp.mode = .data
  | .sysex => s.mp.mode = .sysex
  | .sxdiscard => s.mp.mode = .sxdiscard

/-! ### Only one RA record, or one buffer, changes -/

/-- `t` is `s` with RA[g][ch] holding r and nothing else changed (R324). -/
def RaUpdate (s : State) (g ch : U4) (r : RaRec) (t : State) : Prop :=
  t.raAt g ch = r ∧ (∀ h d, ¬ (h = g ∧ d = ch) → t.raAt h d = s.raAt h d) ∧ { t with ra := s.ra } = s

/-- `t` is `s` with UP.sx7[g] holding b and nothing else changed (R286). -/
def Sx7Update (s : State) (g : U4) (b : Option (List U7)) (t : State) : Prop :=
  t.sx7At g = b ∧ (∀ h, h ≠ g → t.sx7At h = s.sx7At h) ∧ t.up.sx8 = s.up.sx8 ∧ { t with up := s.up } = s

/-- `t` is `s` with UP.sx8[g] holding b and nothing else changed (R286). -/
def Sx8Update (s : State) (g : U4) (b : Option Sx8) (t : State) : Prop :=
  t.sx8At g = b ∧ (∀ h, h ≠ g → t.sx8At h = s.sx8At h) ∧ t.up.sx7 = s.up.sx7 ∧ { t with up := s.up } = s

/-! ### The payload of a SysEx packet that passes its checks -/

/-- The payload of a SysEx7 packet that passes R270's checks: the 7-bit values of its first n bytes. -/
def Sysex7Payload (n : U4) (b1 b2 : Byte) (w1 : Word) (p : List U7) : Prop :=
  n.toNat ≤ 6 ∧ p.map (fun v => (0#1 ++ v : Byte)) = [b1, b2, w1.extractLsb' 24 8, w1.extractLsb' 16 8,
    w1.extractLsb' 8 8, w1.extractLsb' 0 8].take n.toNat

/-- The payload of a SysEx8 packet that passes R280's check: its first n - 1 bytes after the stream identifier. -/
def Sysex8Payload (n : U4) (b2 : Byte) (w1 w2 w3 : Word) (p : List Byte) : Prop :=
  1 ≤ n.toNat ∧ n.toNat ≤ 14 ∧ p = [b2,
    w1.extractLsb' 24 8, w1.extractLsb' 16 8, w1.extractLsb' 8 8, w1.extractLsb' 0 8,
    w2.extractLsb' 24 8, w2.extractLsb' 16 8, w2.extractLsb' 8 8, w2.extractLsb' 0 8,
    w3.extractLsb' 24 8, w3.extractLsb' 16 8, w3.extractLsb' 8 8, w3.extractLsb' 0 8].take (n.toNat - 1)

/-! ### The invariant -/

/-- `len ≤ SYSEX_MAX`, always so when it is INF (R61). -/
def within (m : SysexMax) (len : Nat) : Prop :=
  match m with
  | .inf => True
  | .bytes n => len ≤ n

/-- SYSEX_MAX is INF or at least 1 (R7). -/
def SysexMaxOk (m : SysexMax) : Prop :=
  match m with
  | .inf => True
  | .bytes n => 1 ≤ n

/-- The MP invariants of R27, with R24 to R26: k is 0 or 1, a channel message in progress is that of the running
status, and the SysEx payload is within SYSEX_MAX. -/
structure Mp.Inv (m : SysexMax) (p : Mp) : Prop where
  data : p.mode = .data → p.k < need p.cur ∧ 1 ≤ need p.cur
  sx : p.mode ≠ .sysex → p.sx = []
  rs : ∀ st, p.rs = some st → 0x80#8 ≤ st ∧ st ≤ 0xEF#8
  k : p.k ≤ 1
  cur : p.mode = .data → p.cur ≤ 0xEF#8 → p.rs = some p.cur
  max : within m p.sx.length

/-- The framer's invariant (R28): an incomplete packet is shorter than its word count, and there is no count without
one. -/
structure Wf.Inv (w : Wf) : Prop where
  empty : w.buf = [] → w.need = 0
  part : ∀ w0 rest, w.buf = w0 :: rest → w.need = wc (mtOf w0) ∧ rest.length + 1 < w.need

/-- The invariant of an RA record (R33), and that the null number is never stored (R313). -/
structure RaRec.Inv (r : RaRec) : Prop where
  empty : r.kind = none → r = RaRec.empty
  null : ¬ (r.nMSB = some 127#7 ∧ r.nLSB = some 127#7)

/-- The invariant of the whole state. -/
structure State.Inv (s : State) : Prop where
  /-- the reserved bits of CFG are 0 (R40, R41) -/
  cfg : s.cfg &&& 0xFFFFF0C0#32 = 0
  /-- R7 -/
  max : SysexMaxOk s.sysexMax
  /-- R27 -/
  mp : Mp.Inv s.sysexMax s.mp
  /-- R28 -/
  wf : Wf.Inv s.wf
  /-- R61 -/
  sx7 : ∀ g buf, s.sx7At g = some buf → within s.sysexMax buf.length
  /-- R61 -/
  sx8 : ∀ g buf, s.sx8At g = some buf → within s.sysexMax buf.payload.length
  /-- R33 -/
  ra : ∀ g c, RaRec.Inv (s.raAt g c)

/-- A safe outcome: the block goes on, in a state that meets the invariant. -/
def SafeOutcome (r : Result) : Prop := ∃ t, r = .next t ∧ State.Inv t

/-! ### Start-of-run premises (R405) -/

/-- `Quiescent(cfg)`: every element but CFG and OUT at its R45 value, with CFG = cfg. -/
def Quiescent (cfg : Word) (s : State) : Prop :=
  s.cfg = cfg ∧ s.mp = Mp.reset ∧ s.wf = Wf.reset ∧ s.up = Up.reset ∧ s.ra = raReset

/-- `PowerOn`: the state of R45 with CFG = 0x0000_0035 and OUT = []. -/
def PowerOn (s : State) : Prop := Quiescent 0x00000035#32 s ∧ s.out = []

/-- `Configured(cfg)`: PowerOn followed by CONFIG(cfg). -/
def Configured (cfg : Word) (s : State) : Prop := ∃ p, PowerOn p ∧ exec (.config cfg) p = .next s

end Sys2Proof.Machine
end

