-- ==== Sys2Proof/Certificates/Slice0/Obligations.lean ====
section
/-! DEFINITION. The statements for the provers. `g` is the group, `ch` the channel; `s` ranges over every state, reached
or not, unless a hypothesis says otherwise. A row's next state is given as the state before it with the fields it writes,
so that each equation is the row's result and its frame at once. -/

open Sys2Proof Sys2Proof.Machine

/-! ### Reset and control -/

/-- R45, R350, R391: the power-on values; and RESET sets them all but CFG and OUT. -/
def Obligations.PowerOnAndResetValues : Prop :=
  State.reset.cfg = 0x00000035#32 ∧ State.reset.out = [] ∧
  State.reset.mp = ⟨.idle, none, 0x00#8, 0, 0x00#7, []⟩ ∧ State.reset.wf = ⟨[], 0⟩ ∧
  (∀ g, State.reset.sx7At g = none ∧ State.reset.sx8At g = none) ∧
  (∀ g c, State.reset.raAt g c = ⟨none, none, none, none, none⟩) ∧
  ∀ s, ∃ t, exec .reset s = .next t ∧ t.cfg = s.cfg ∧ t.out = s.out ∧
    t.mp = ⟨.idle, none, 0x00#8, 0, 0x00#7, []⟩ ∧ t.wf = ⟨[], 0⟩ ∧
    (∀ g, t.sx7At g = none ∧ t.sx8At g = none) ∧
    (∀ g c, t.raAt g c = ⟨none, none, none, none, none⟩) ∧
    t.sysexMax = s.sysexMax ∧ t.inp = s.inp

/-- R351: CONFIG writes bits 5:0 and 11:8 from its operand, every other bit of CFG 0, and nothing else. -/
def Obligations.ConfigWritesTheWritableBits : Prop :=
  ∀ v s, ∃ c, exec (.config v) s = .next { s with cfg := c } ∧
    ∀ n, n < 32 → c.getLsbD n = (v.getLsbD n && (decide (n ≤ 5) || (decide (8 ≤ n) && decide (n ≤ 11))))

/-- R352: a reserved tag appends UNSUPPORTED with the tag, and changes nothing else. -/
def Obligations.ReservedTagsAreUnsupported : Prop :=
  ∀ s, exec .tagRsvd5 s = .next { s with out := s.out ++ [.dg .unsupported 5#32] } ∧
    exec .tagRsvd6 s = .next { s with out := s.out ++ [.dg .unsupported 6#32] } ∧
    exec .tagRsvd7 s = .next { s with out := s.out ++ [.dg .unsupported 7#32] }

/-! ### The machine as a whole -/

/-- R27, R45: the state after power-on meets the invariant (its SYSEX_MAX is the model's choice, log entry 1). -/
def Obligations.ResetMeetsTheInvariant : Prop := State.Inv State.reset

/-- R27, R28, R33, R40, R61: every instruction keeps the invariant. -/
def Obligations.EveryInstructionKeepsTheInvariant : Prop :=
  ∀ i s t, State.Inv s → exec i s = .next t → State.Inv t

/-- R27, R28, R33, R40, R61, R360: from every state that meets the invariant, a step answers a next state that meets it. -/
def Obligations.EveryStepKeepsTheInvariant : Prop :=
  ∀ s, State.Inv s → SafeOutcome (step s)

/-- R360, R365, R370: nothing stops the block, in any state. -/
def Obligations.NothingStopsTheBlock : Prop := ∀ s, Answers (step s)

/-- Of the 107 rows, every one answers a next state in the states that select it (for a DATA row, R141 to R145). The
refusal of a DATA row in a state that does not select it, under the name notSelected, is the model's own choice (log
entry 6, DESIGN CHOICE): no rule of the spec speaks of one. -/
def Obligations.OnlyUnselectedDataRowsAreRefused : Prop :=
  (∀ i s, (∀ r, i.dataRow = some r → Selected s r) → Answers (exec i s)) ∧
  ∀ i s r, i.dataRow = some r → ¬ Selected s r → ∃ m, exec i s = .refused (.notSelected m)

/-- R402: every transaction ends in one step and appends at most 2 items (BYTE), 1 (WORD, PACKET, a reserved tag) or
none (RESET, CONFIG). -/
def Obligations.EveryTransactionEndsWithItsItems : Prop :=
  ∀ (x : Txn) s, ∃ t items, exec (decodeTxn x) s = .next t ∧ t.out = s.out ++ items ∧
    items.length ≤ (if x.tag = 0 then 2 else if x.tag = 3 ∨ x.tag = 4 then 0 else 1)

/-- R172: a byte appends at most two items, a data byte or a real-time byte at most one. -/
def Obligations.ItemsPerByte : Prop :=
  ∀ b s, ∃ t items, exec (.byte b) s = .next t ∧ t.out = s.out ++ items ∧ items.length ≤ 2 ∧
    (b.getLsbD 7 = false ∨ 0xF8#8 ≤ b → items.length ≤ 1)

/-- R36, R41: no instruction but CONFIG writes CFG; and none writes the model's own two fields. -/
def Obligations.OnlyConfigWritesCfg : Prop :=
  ∀ i s t, exec i s = .next t →
    (t.cfg = s.cfg ∨ ∃ v, i = .config v) ∧ t.sysexMax = s.sysexMax ∧ t.inp = s.inp

/-- R205, R200, R67: a BYTE changes no WF or UP state, a WORD no MP state, a PACKET no MP or WF state. -/
def Obligations.PathsAreIndependent : Prop :=
  (∀ b s t, exec (.byte b) s = .next t → t.wf = s.wf ∧ t.up = s.up) ∧
  (∀ w s t, exec (.word w) s = .next t → t.mp = s.mp) ∧
  ∀ w0 rest s t, exec (.packet w0 rest) s = .next t → t.mp = s.mp ∧ t.wf = s.wf

/-! ### Step and decode -/

/-- R7, R21, R71, R390: a step runs the next transaction presented, on the state without it; with none it does nothing
(the input sequence is the model's field, log entry 2). -/
def Obligations.StepRunsTheNextTransaction : Prop :=
  (∀ s x rest, s.inp = x :: rest → step s = exec (decodeTxn x) { s with inp := rest }) ∧
  ∀ s, s.inp = [] → step s = .next s

/-- How a bare word of the opcode table is read and presented is the model's own choice (log entry 5, DESIGN CHOICE: no
rule of the spec gives a reading of one). So read, it is run by the next step as the instruction the decoder reads from
it (for a data byte, in a state that selects its row). -/
def Obligations.PresentedTableWordIsRun : Prop :=
  ∀ s nbits w i, decodeTableWord nbits w = some i → (∀ r, i.dataRow = some r → Selected s r) →
    step (s.withFetchWord nbits w) = exec i s

/-- 30_encoding.md: decoding the encoding of a well-formed instruction gives it back, for all 107 rows and every
operand. -/
def Obligations.DecodeOfEncodeIsTheInstruction : Prop :=
  ∀ sel i, i.wellFormed = true → (∀ r, i.dataRow = some r → r = sel) → decode sel (encode i) = .ok i

/-- 30_encoding.md: a byte, a packet and a controller are the encoding of the row they decode to, so no bit of them is
dropped; and what decodes is well-formed. -/
def Obligations.EncodeOfDecodeIsTheCode : Prop :=
  (∀ sel b, encode (decodeByte sel b) = .byte8 b) ∧
  (∀ w0 rest i, decodeUmp w0 rest = .ok i → encode i = .ump w0 rest) ∧
  (∀ g ch ctrl v, encode (decodeCc g ch ctrl v) = .cc7 g ch ctrl v) ∧
  ∀ sel c i, decode sel c = .ok i → i.wellFormed = true

/-- Words written out from the examples of 40_midi1_parser.md, 42_ump_messages.md, 43_ump_sysex.md and 95_test_vectors.md
decode to their rows. -/
def Obligations.SpecWordsDecode : Prop :=
  decode .orphan (.byte8 0xE3#8) = .ok (.pitchbend 3) ∧
  decode .orphan (.byte8 0xF5#8) = .ok .busselF5 ∧
  decode .sysex (.byte8 0x7D#8) = .ok (.dataSysex 0x7D#7) ∧
  decode .orphan (.ump 0x0320ABCD#32 []) = .ok (.u0Jrts 3 0 0xABCD#16) ∧
  decode .orphan (.ump 0x12F60000#32 []) = .ok (.u1Tunereq 2 0 0) ∧
  decode .orphan (.ump 0x21934000#32 []) = .ok (.u2Noteon 1 3 0x40#8 0x00#8) ∧
  decode .orphan (.ump 0x30130102#32 [0x03000000#32]) = .ok (.u3Start 0 3 0x01#8 0x02#8 0x03000000#32) ∧
  decode .orphan (.ump 0x41924000#32 [0x80000000#32]) = .ok (.u4Noteon 1 2 0x40#8 0x00#8 0x80000000#32) ∧
  decode .orphan (.ump 0x50800000#32 [0, 0, 0]) = .ok (.u5Other 0 8 0 0 0 0 0 0) ∧
  decode .orphan (.ump 0x50010000#32 [0]) = .error .length ∧
  decode .orphan (.ump 0xD0000000#32 [0, 0, 0]) = .ok (.uD 0 0 0 0 0) ∧
  decode .orphan (.cc7 2 3 0x62#7 0x05#7) = .ok (.raCc98 2 3 0x05#7) ∧
  decodeTxn ⟨2, 1, 0x0300000030130102#128⟩ = .packet 0x30130102#32 [0x03000000#32]

/-- R82, R140: a BYTE is processed by exactly the row its class and, for a data byte, the MP state select. -/
def Obligations.ByteRunsItsRow : Prop :=
  ∀ b s sel, Selected s sel → ∃ t, exec (.byte b) s = .next t ∧ exec (decodeByte sel b) s = .next t

/-- R201, R202, R204: a PACKET of the right length runs the row its words decode to. -/
def Obligations.PacketRunsItsRow : Prop :=
  ∀ w0 rest s i, decodeUmp w0 rest = .ok i → ∃ t, exec (.packet w0 rest) s = .next t ∧ exec i s = .next t

/-- R203: a PACKET whose length differs from its message type's word count is dropped whole with LENGTH. -/
def Obligations.WrongLengthPacketIsDropped : Prop :=
  ∀ w0 rest s, rest.length + 1 ≠ wc (w0.extractLsb' 28 4) →
    exec (.packet w0 rest) s = .next { s with out := s.out ++ [.dg .length w0] }

/-- R200: the word framer's four cases. -/
def Obligations.WordFramer : Prop :=
  (∀ s w i, s.wf.buf = [] → decodeUmp w [] = .ok i →
    ∃ t, exec (.word w) s = .next t ∧ exec i s = .next t) ∧
  (∀ s w, s.wf.buf = [] → wc (w.extractLsb' 28 4) ≠ 1 →
    exec (.word w) s = .next { s with wf := ⟨[w], wc (w.extractLsb' 28 4)⟩ }) ∧
  (∀ s w w0 rest, s.wf.buf = w0 :: rest → rest.length + 2 ≠ s.wf.need →
    exec (.word w) s = .next { s with wf := ⟨w0 :: rest ++ [w], s.wf.need⟩ }) ∧
  ∀ s w w0 rest i, s.wf.buf = w0 :: rest → rest.length + 2 = s.wf.need → decodeUmp w0 (rest ++ [w]) = .ok i →
    ∃ t, exec (.word w) s = .next t ∧ exec i { s with wf := ⟨[], 0⟩ } = .next t

/-- R200, R201, C6: from an empty framer, the words of a packet given one by one on the word port have the effect of the
packet given whole on the packet port. -/
def Obligations.WordPortEqualsPacketPort : Prop :=
  ∀ s w0 rest, s.wf = ⟨[], 0⟩ → rest.length + 1 = wc (w0.extractLsb' 28 4) →
    execAll ((w0 :: rest).map .word) s = exec (.packet w0 rest) s

/-- R95: the word count of each message type 0x0 to 0xF. -/
def Obligations.WordCounts : Prop :=
  (List.range 16).map (fun m => wc (BitVec.ofNat 4 m)) = [1, 1, 1, 2, 2, 4, 1, 1, 2, 2, 2, 3, 3, 4, 4, 4]

/-- R86: the data-byte count of each status that collects data bytes, and of the system bytes it gives 0. That `need` is 0
for the bytes R86 gives no count (0x00 to 0x7F and 0xF0) is the model's own choice (log entry 4, DESIGN CHOICE). -/
def Obligations.DataByteCounts : Prop :=
  ∀ s : Byte, need s =
    if 0x80#8 ≤ s ∧ s ≤ 0xBF#8 then 2
    else if 0xC0#8 ≤ s ∧ s ≤ 0xDF#8 then 1
    else if 0xE0#8 ≤ s ∧ s ≤ 0xEF#8 then 2
    else if s = 0xF1#8 ∨ s = 0xF3#8 ∨ s = 0xF5#8 then 1
    else if s = 0xF2#8 then 2
    else 0

/-! ### The MIDI-1 parser -/

/-- R87, R149: the event of each complete message, its 14-bit values least significant half first, and the velocity-0
policy of the byte port. -/
def Obligations.MessageEvents : Prop :=
  ∀ (cfg : Word) (ch : U4) (d1 d2 : U7),
    messageEvent cfg (0x8#4 ++ ch) d1 d2 = some (.noteOff1 (cfg.extractLsb' 8 4) ch d1 d2) ∧
    messageEvent cfg (0x9#4 ++ ch) d1 d2 =
      (if d2 = 0 ∧ cfg.getLsbD 0 = true then some (.noteOff1 (cfg.extractLsb' 8 4) ch d1 0)
      else some (.noteOn1 (cfg.extractLsb' 8 4) ch d1 d2)) ∧
    messageEvent cfg (0xA#4 ++ ch) d1 d2 = some (.polyPressure1 (cfg.extractLsb' 8 4) ch d1 d2) ∧
    messageEvent cfg (0xB#4 ++ ch) d1 d2 = some (.controlChange1 (cfg.extractLsb' 8 4) ch d1 d2) ∧
    messageEvent cfg (0xC#4 ++ ch) d1 d2 = some (.programChange1 (cfg.extractLsb' 8 4) ch d1) ∧
    messageEvent cfg (0xD#4 ++ ch) d1 d2 = some (.channelPressure1 (cfg.extractLsb' 8 4) ch d1) ∧
    messageEvent cfg (0xE#4 ++ ch) d1 d2 = some (.pitchBend1 (cfg.extractLsb' 8 4) ch (d2 ++ d1)) ∧
    messageEvent cfg 0xF1#8 d1 d2 = some (.quarterFrame (cfg.extractLsb' 8 4) d1) ∧
    messageEvent cfg 0xF2#8 d1 d2 = some (.songPosition (cfg.extractLsb' 8 4) (d2 ++ d1)) ∧
    messageEvent cfg 0xF3#8 d1 d2 = some (.songSelect (cfg.extractLsb' 8 4) d1) ∧
    messageEvent cfg 0xF5#8 d1 d2 = some (.busSelect (cfg.extractLsb' 8 4) d1)

/-- R142: a data byte with no running status is an orphan. -/
def Obligations.OrphanDataByte : Prop :=
  ∀ s v, s.mp.mode = .idle → s.mp.rs = none →
    exec (.dataOrphan v) s = .next { s with out := s.out ++ [.dg .orphanData (v.setWidth 32)] }

/-- R141: a data byte under running status completes a one-byte message, or is the first of two. -/
def Obligations.RunningStatusDataByte : Prop :=
  ∀ s st v, s.mp.mode = .idle → s.mp.rs = some st → 0x80#8 ≤ st → st ≤ 0xEF#8 →
    exec (.dataRs v) s = .next
      (if 0xC0#8 ≤ st ∧ st ≤ 0xCF#8 then
        { s with out := s.out ++ [.ev (.programChange1 (s.cfg.extractLsb' 8 4) (st.extractLsb' 0 4) v)] }
      else if 0xD0#8 ≤ st ∧ st ≤ 0xDF#8 then
        { s with out := s.out ++ [.ev (.channelPressure1 (s.cfg.extractLsb' 8 4) (st.extractLsb' 0 4) v)] }
      else { s with mp := { s.mp with cur := st, d0 := v, k := 1, mode := .data } })

/-- R143: a data byte of a message in progress is kept, or completes it: the message's event goes to OUT, a control
change through the RA's row for its controller. -/
def Obligations.DataByteOfAMessage : Prop :=
  (∀ s v, s.mp.mode = .data → s.mp.k + 1 ≠ need s.mp.cur →
    exec (.dataData v) s = .next { s with mp := { s.mp with d0 := v, k := 1 } }) ∧
  (∀ s v e, s.mp.mode = .data → s.mp.k + 1 = need s.mp.cur →
    (s.mp.k = 0 → messageEvent s.cfg s.mp.cur v 0#7 = some e) →
    (s.mp.k ≠ 0 → messageEvent s.cfg s.mp.cur s.mp.d0 v = some e) →
    s.mp.cur.extractLsb' 4 4 ≠ 0xB#4 →
    exec (.dataData v) s = .next { s with mp := { s.mp with mode := .idle, k := 0 }, out := s.out ++ [.ev e] }) ∧
  ∀ s v ch, s.mp.mode = .data → s.mp.k = 1 → s.mp.cur = (0xB#4 ++ ch : Byte) →
    ∃ t, exec (decodeCc (s.cfg.extractLsb' 8 4) ch s.mp.d0 v) s = .next t ∧
      exec (.dataData v) s = .next { t with mp := { s.mp with mode := .idle, k := 0 } }

/-- R144, R145: a data byte in a SysEx is accumulated, or overflows it at SYSEX_MAX; a discarded one changes nothing. -/
def Obligations.SysexDataByte : Prop :=
  (∀ s v, s.mp.mode = .sysex → s.sysexMax ≠ .bytes s.mp.sx.length →
    exec (.dataSysex v) s = .next { s with mp := { s.mp with sx := s.mp.sx ++ [v] } }) ∧
  (∀ s v m, s.mp.mode = .sysex → s.sysexMax = .bytes m → s.mp.sx.length = m →
    exec (.dataSysex v) s = .next
      { s with mp := { s.mp with sx := [], mode := .sxdiscard },
               out := s.out ++ [.dg .sysexOverflow (BitVec.ofNat 32 m)] }) ∧
  ∀ s v, s.mp.mode = .sxdiscard → exec (.dataSxdiscard v) s = .next s

/-- R147, R148 to R154: a channel status byte preempts what was in progress, becomes running status and awaits its data
bytes. -/
def Obligations.ChannelStatusByte : Prop :=
  ∀ s (ch : U4),
    let begun (b : Byte) : Result := .next
      { afterPreempt s b with
        mp := { (afterPreempt s b).mp with rs := some b, cur := b, k := 0, mode := .data } }
    exec (.noteoff ch) s = begun (0x8#4 ++ ch) ∧ exec (.noteon ch) s = begun (0x9#4 ++ ch) ∧
    exec (.polypress ch) s = begun (0xA#4 ++ ch) ∧ exec (.cc ch) s = begun (0xB#4 ++ ch) ∧
    exec (.progchg ch) s = begun (0xC#4 ++ ch) ∧ exec (.chanpress ch) s = begun (0xD#4 ++ ch) ∧
    exec (.pitchbend ch) s = begun (0xE#4 ++ ch)

/-- R147, R156, R157, R158, R160: a system-common status preempts and awaits its data bytes without setting running
status; 0xF5 does so only when CFG.BUS_SELECT_EN is 1, and is undefined otherwise. -/
def Obligations.SystemCommonWithData : Prop :=
  ∀ s,
    let awaiting (b : Byte) : Result := .next
      { afterPreempt s b with mp := { (afterPreempt s b).mp with cur := b, k := 0, mode := .data } }
    exec .mtcQf s = awaiting 0xF1#8 ∧ exec .songpos s = awaiting 0xF2#8 ∧ exec .songsel s = awaiting 0xF3#8 ∧
    (s.cfg.getLsbD 5 = true → exec .busselF5 s = awaiting 0xF5#8) ∧
    (s.cfg.getLsbD 5 = false →
      exec .busselF5 s = .next (appended (afterPreempt s 0xF5#8) [.dg .undefined 0xF5#32]))

/-- R155, R159, R161, R162: SysEx start, 0xF4, tune request and end of SysEx. -/
def Obligations.SystemCommonWithoutData : Prop :=
  ∀ s,
    exec .sysexStart s = .next
      { afterPreempt s 0xF0#8 with mp := { (afterPreempt s 0xF0#8).mp with sx := [], mode := .sysex } } ∧
    exec .undefF4 s = .next (appended (afterPreempt s 0xF4#8) [.dg .undefined 0xF4#32]) ∧
    exec .tunereq s = .next (appended (afterPreempt s 0xF6#8) [.ev (.tuneRequest (s.cfg.extractLsb' 8 4))]) ∧
    (s.mp.mode = .sysex → exec .eox s = .next
      { afterPreempt s 0xF7#8 with
        mp := { (afterPreempt s 0xF7#8).mp with sx := [], mode := .idle },
        out := s.out ++ [.ev (.sysEx7 (s.cfg.extractLsb' 8 4) s.mp.sx)] }) ∧
    (s.mp.mode = .sxdiscard → exec .eox s = .next
      { afterPreempt s 0xF7#8 with mp := { (afterPreempt s 0xF7#8).mp with mode := .idle }, out := s.out }) ∧
    (s.mp.mode = .idle ∨ s.mp.mode = .data → exec .eox s = .next
      (appended (afterPreempt s 0xF7#8) [.dg .orphanEox 0xF7#32]))

/-- R163 to R170: a real-time byte appends its one item and changes nothing else, in any state. -/
def Obligations.RealTimeByte : Prop :=
  ∀ s,
    exec .clock s = .next (appended s [.ev (.timingClock (s.cfg.extractLsb' 8 4))]) ∧
    exec .undefF9 s = .next (appended s [.dg .undefined 0xF9#32]) ∧
    exec .rtStart s = .next (appended s [.ev (.start (s.cfg.extractLsb' 8 4))]) ∧
    exec .rtContinue s = .next (appended s [.ev (.contin (s.cfg.extractLsb' 8 4))]) ∧
    exec .rtStop s = .next (appended s [.ev (.stop (s.cfg.extractLsb' 8 4))]) ∧
    exec .undefFd s = .next (appended s [.dg .undefined 0xFD#32]) ∧
    exec .actsense s = .next (appended s [.ev (.activeSensing (s.cfg.extractLsb' 8 4))]) ∧
    exec .sysreset s = .next (appended s [.ev (.systemReset (s.cfg.extractLsb' 8 4))])

/-- R173, R147: from any state a channel status byte and its data bytes, with any real-time bytes between, end in IDLE
with that running status. After the items OUT held it holds preempt's, those of the real-time bytes, and then the
message's own: its event, or, for a control change, what its controller's row appends. -/
def Obligations.RecoveryFromAnyState : Prop :=
  ∀ s (st : Byte) (d1 d2 : U7) (r1 r2 : List Byte),
    0x80#8 ≤ st → st ≤ 0xEF#8 → (∀ b ∈ r1, 0xF8#8 ≤ b) → (∀ b ∈ r2, 0xF8#8 ≤ b) →
    ∃ t,
      execAll ((st :: r1 ++ (0#1 ++ d1 : Byte) :: (if need st = 2 then r2 ++ [(0#1 ++ d2 : Byte)] else [])).map .byte) s
        = .next t ∧
      t.mp.mode = .idle ∧ t.mp.rs = some st ∧
      MessageDone (beforeEvent s st d1 r1 r2) st d1 d2 (.next t)

/-- R42, R351, R397: a message in progress is finished under the CFG of a CONFIG that comes before it is complete: before
the last data byte of any status, before both data bytes of a two-byte status, and before the end of a SysEx. Then the
example of R397 and the corner case of R351 with their events written out: a note-on of velocity 0, and a bus-select,
whatever the new BUS_SELECT_EN is. -/
def Obligations.ConfigInTheMiddleOfAMessage : Prop :=
  (∀ s v d, s.mp.mode = .data → s.mp.k + 1 = need s.mp.cur →
    MessageDone { s with cfg := v &&& 0x00000F3F#32, mp := { s.mp with mode := .idle, k := 0 } } s.mp.cur
      (if s.mp.k = 0 then d else s.mp.d0) (if s.mp.k = 0 then 0#7 else d) (execAll [.config v, .dataData d] s)) ∧
  (∀ s v d1 d2, s.mp.mode = .data → s.mp.k = 0 → need s.mp.cur = 2 →
    MessageDone { s with cfg := v &&& 0x00000F3F#32, mp := { s.mp with mode := .idle, d0 := d1 } } s.mp.cur
      d1 d2 (execAll [.config v, .dataData d1, .dataData d2] s)) ∧
  (∀ s v, s.mp.mode = .sysex →
    execAll [.config v, .eox] s = .next
      { s with
        cfg := v &&& 0x00000F3F#32
        mp := { s.mp with mode := .idle, sx := [], rs := if v.getLsbD 2 = true then none else s.mp.rs }
        out := s.out ++ [.ev (.sysEx7 (v.extractLsb' 8 4) s.mp.sx)] }) ∧
  (∀ s v ch, s.mp.mode = .data → s.mp.k = 1 → s.mp.cur = (0x9#4 ++ ch : Byte) →
    execAll [.config v, .dataData 0#7] s = .next
      { s with
        cfg := v &&& 0x00000F3F#32
        mp := { s.mp with mode := .idle, k := 0 }
        out := s.out ++ [.ev (if v.getLsbD 0 = true then .noteOff1 (v.extractLsb' 8 4) ch s.mp.d0 0#7
          else .noteOn1 (v.extractLsb' 8 4) ch s.mp.d0 0#7)] }) ∧
  ∀ s v d, s.mp.mode = .data → s.mp.k = 0 → s.mp.cur = 0xF5#8 →
    execAll [.config v, .dataData d] s = .next
      { s with
        cfg := v &&& 0x00000F3F#32
        mp := { s.mp with mode := .idle }
        out := s.out ++ [.ev (.busSelect (v.extractLsb' 8 4) d)] }

/-! ### UMP messages -/

/-- R221 to R224: the utility messages. -/
def Obligations.UtilityMessages : Prop :=
  ∀ s g x time st,
    exec (.u0Noop g x time) s = .next (appended s [.ev (.noOp g)]) ∧
    exec (.u0Jrclock g x time) s = .next (appended s [.ev (.jrClock g time)]) ∧
    exec (.u0Jrts g x time) s = .next (appended s [.ev (.jrTimestamp g time)]) ∧
    exec (.u0Other g st x time) s = .next (appended s [.dg .unsupported (word0 (.u0Other g st x time))])

/-- R227 to R238: the system messages in UMP, with the range check of their 7-bit fields. -/
def Obligations.SystemMessagesInUmp : Prop :=
  ∀ s g (b1 b2 st : Byte),
    exec (.u1MtcQf g b1 b2) s = .next (appended s
      [if b1.getLsbD 7 then .dg .range (word0 (.u1MtcQf g b1 b2)) else .ev (.quarterFrame g (b1.extractLsb' 0 7))]) ∧
    exec (.u1Songpos g b1 b2) s = .next (appended s
      [if b1.getLsbD 7 || b2.getLsbD 7 then .dg .range (word0 (.u1Songpos g b1 b2))
      else .ev (.songPosition g (b2.extractLsb' 0 7 ++ b1.extractLsb' 0 7))]) ∧
    exec (.u1Songsel g b1 b2) s = .next (appended s
      [if b1.getLsbD 7 then .dg .range (word0 (.u1Songsel g b1 b2)) else .ev (.songSelect g (b1.extractLsb' 0 7))]) ∧
    exec (.u1Bussel g b1 b2) s = .next (appended s
      [if s.cfg.getLsbD 5 = false then .dg .unsupported (word0 (.u1Bussel g b1 b2))
      else if b1.getLsbD 7 then .dg .range (word0 (.u1Bussel g b1 b2)) else .ev (.busSelect g (b1.extractLsb' 0 7))]) ∧
    exec (.u1Tunereq g b1 b2) s = .next (appended s [.ev (.tuneRequest g)]) ∧
    exec (.u1Clock g b1 b2) s = .next (appended s [.ev (.timingClock g)]) ∧
    exec (.u1Start g b1 b2) s = .next (appended s [.ev (.start g)]) ∧
    exec (.u1Continue g b1 b2) s = .next (appended s [.ev (.contin g)]) ∧
    exec (.u1Stop g b1 b2) s = .next (appended s [.ev (.stop g)]) ∧
    exec (.u1Actsense g b1 b2) s = .next (appended s [.ev (.activeSensing g)]) ∧
    exec (.u1Sysreset g b1 b2) s = .next (appended s [.ev (.systemReset g)]) ∧
    exec (.u1Other g st b1 b2) s = .next (appended s [.dg .unsupported (word0 (.u1Other g st b1 b2))])

/-- R241 to R243, R245 to R248: the MIDI-1 channel-voice messages in UMP but control change. -/
def Obligations.ChannelVoiceInUmp : Prop :=
  ∀ s g ch (b1 b2 : Byte) op,
    let d1 : U7 := b1.extractLsb' 0 7
    let d2 : U7 := b2.extractLsb' 0 7
    exec (.u2Noteoff g ch b1 b2) s = .next (appended s
      [if b1.getLsbD 7 || b2.getLsbD 7 then .dg .range (word0 (.u2Noteoff g ch b1 b2)) else .ev (.noteOff1 g ch d1 d2)]) ∧
    exec (.u2Noteon g ch b1 b2) s = .next (appended s
      [if b1.getLsbD 7 || b2.getLsbD 7 then .dg .range (word0 (.u2Noteon g ch b1 b2)) else .ev (.noteOn1 g ch d1 d2)]) ∧
    exec (.u2Polypress g ch b1 b2) s = .next (appended s
      [if b1.getLsbD 7 || b2.getLsbD 7 then .dg .range (word0 (.u2Polypress g ch b1 b2))
      else .ev (.polyPressure1 g ch d1 d2)]) ∧
    exec (.u2Progchg g ch b1 b2) s = .next (appended s
      [if b1.getLsbD 7 then .dg .range (word0 (.u2Progchg g ch b1 b2)) else .ev (.programChange1 g ch d1)]) ∧
    exec (.u2Chanpress g ch b1 b2) s = .next (appended s
      [if b1.getLsbD 7 then .dg .range (word0 (.u2Chanpress g ch b1 b2)) else .ev (.channelPressure1 g ch d1)]) ∧
    exec (.u2Pitchbend g ch b1 b2) s = .next (appended s
      [if b1.getLsbD 7 || b2.getLsbD 7 then .dg .range (word0 (.u2Pitchbend g ch b1 b2))
      else .ev (.pitchBend1 g ch (d2 ++ d1))]) ∧
    exec (.u2Other07 g op ch b1 b2) s = .next (appended s [.dg .unsupported (word0 (.u2Other07 g op ch b1 b2))]) ∧
    exec (.u2OtherF g ch b1 b2) s = .next (appended s [.dg .unsupported (word0 (.u2OtherF g ch b1 b2))])

/-- R244: a control change in UMP is range-checked, then runs the RA's row for its controller on RA[g][ch]. -/
def Obligations.ControlChangeInUmp : Prop :=
  (∀ s g ch (b1 b2 : Byte), b1.getLsbD 7 = true ∨ b2.getLsbD 7 = true →
    exec (.u2Cc g ch b1 b2) s = .next (appended s [.dg .range (word0 (.u2Cc g ch b1 b2))])) ∧
  ∀ s g ch (b1 b2 : Byte), b1.getLsbD 7 = false → b2.getLsbD 7 = false →
    ∃ t, exec (.u2Cc g ch b1 b2) s = .next t ∧
      exec (decodeCc g ch (b1.extractLsb' 0 7) (b2.extractLsb' 0 7)) s = .next t

/-- R251, R252, R257 to R262, R264 to R266: the MIDI-2 channel-voice messages without a parameter number or program. -/
def Obligations.Midi2ChannelVoice : Prop :=
  ∀ s g ch (b1 b2 : Byte) (w1 : Word),
    let note : U7 := b1.extractLsb' 0 7
    let checked (i : Instr) (e : Event) : Result :=
      .next (appended s [if b1.getLsbD 7 then .dg .range (word0 i) else .ev e])
    exec (.u4Pnrc g ch b1 b2 w1) s = checked (.u4Pnrc g ch b1 b2 w1) (.perNoteController g ch note true b2 w1) ∧
    exec (.u4Pnac g ch b1 b2 w1) s = checked (.u4Pnac g ch b1 b2 w1) (.perNoteController g ch note false b2 w1) ∧
    exec (.u4Pnpb g ch b1 b2 w1) s = checked (.u4Pnpb g ch b1 b2 w1) (.perNotePitchBend g ch note w1) ∧
    exec (.u4Op7 g ch b1 b2 w1) s = .next (appended s [.dg .unsupported (word0 (.u4Op7 g ch b1 b2 w1))]) ∧
    exec (.u4Noteoff g ch b1 b2 w1) s = checked (.u4Noteoff g ch b1 b2 w1)
      (.noteOff2 g ch note b2 (w1.extractLsb' 16 16) (w1.extractLsb' 0 16)) ∧
    exec (.u4Noteon g ch b1 b2 w1) s = checked (.u4Noteon g ch b1 b2 w1)
      (.noteOn2 g ch note b2 (w1.extractLsb' 16 16) (w1.extractLsb' 0 16)) ∧
    exec (.u4Polypress g ch b1 b2 w1) s = checked (.u4Polypress g ch b1 b2 w1) (.polyPressure2 g ch note w1) ∧
    exec (.u4Cc g ch b1 b2 w1) s = checked (.u4Cc g ch b1 b2 w1) (.controlChange2 g ch note w1) ∧
    exec (.u4Chanpress g ch b1 b2 w1) s = .next (appended s [.ev (.channelPressure2 g ch w1)]) ∧
    exec (.u4Pitchbend g ch b1 b2 w1) s = .next (appended s [.ev (.pitchBend2 g ch w1)]) ∧
    exec (.u4Pnmgmt g ch b1 b2 w1) s = checked (.u4Pnmgmt g ch b1 b2 w1)
      (.perNoteManagement g ch note (b2.getLsbD 1) (b2.getLsbD 0))

/-- R253 to R256: the MIDI-2 parameter messages. A negative delta is a decrement by its magnitude. -/
def Obligations.Midi2Parameters : Prop :=
  ∀ s g ch (b1 b2 : Byte) (w1 : Word),
    let param : U14 := b1.extractLsb' 0 7 ++ b2.extractLsb' 0 7
    let checked (i : Instr) (e : Event) : Result :=
      .next (appended s [if b1.getLsbD 7 || b2.getLsbD 7 then .dg .range (word0 i) else .ev e])
    let delta (k : ParamKind) : Event :=
      if w1.getLsbD 31 = false then .paramNumber g ch k param .inc (.v32 w1)
      else .paramNumber g ch k param .dec (.v32 (BitVec.ofNat 32 (2 ^ 32 - w1.toNat)))
    exec (.u4Rc g ch b1 b2 w1) s = checked (.u4Rc g ch b1 b2 w1) (.paramNumber g ch .rpn param .abs (.v32 w1)) ∧
    exec (.u4Ac g ch b1 b2 w1) s = checked (.u4Ac g ch b1 b2 w1) (.paramNumber g ch .nrpn param .abs (.v32 w1)) ∧
    exec (.u4Rrc g ch b1 b2 w1) s = checked (.u4Rrc g ch b1 b2 w1) (delta .rpn) ∧
    exec (.u4Rac g ch b1 b2 w1) s = checked (.u4Rac g ch b1 b2 w1) (delta .nrpn)

/-- R263: the MIDI-2 program change; its bank bits count only when bankValid is 1. -/
def Obligations.Midi2ProgramChange : Prop :=
  ∀ s g ch (b1 b2 : Byte) (w1 : Word),
    exec (.u4Progchg g ch b1 b2 w1) s = .next (appended s
      [if w1.getLsbD 31 = true ∨ (b2.getLsbD 0 = true ∧ (w1.getLsbD 15 = true ∨ w1.getLsbD 7 = true)) then
        .dg .range (word0 (.u4Progchg g ch b1 b2 w1))
      else if b2.getLsbD 0 = true then
        .ev (.programChange2 g ch (w1.extractLsb' 24 7) true (w1.extractLsb' 8 7) (w1.extractLsb' 0 7))
      else .ev (.programChange2 g ch (w1.extractLsb' 24 7) false 0 0)])

/-- R268: message types 0x6 to 0xF are dropped with UNSUPPORTED. -/
def Obligations.ReservedMessageTypes : Prop :=
  ∀ s g r w1 w2 w3,
    let dropped (i : Instr) : Prop := exec i s = .next (appended s [.dg .unsupported (word0 i)])
    dropped (.u6 g r) ∧ dropped (.u7 g r) ∧ dropped (.u8 g r w1) ∧ dropped (.u9 g r w1) ∧ dropped (.uA g r w1) ∧
    dropped (.uB g r w1 w2) ∧ dropped (.uC g r w1 w2) ∧ dropped (.uD g r w1 w2 w3) ∧
    dropped (.uE g r w1 w2 w3) ∧ dropped (.uF g r w1 w2 w3)

/-! ### UMP SysEx -/

/-- R270, R275: a SysEx7 packet with numBytes over 6, or bit 7 set in a valid byte, is dropped with RANGE; an undecoded
status with UNSUPPORTED, before any other check. -/
def Obligations.Sysex7Checks : Prop :=
  (∀ s g n (b1 b2 : Byte) (w1 : Word) i,
    i = .u3Complete g n b1 b2 w1 ∨ i = .u3Start g n b1 b2 w1 ∨ i = .u3Continue g n b1 b2 w1 ∨
      i = .u3End g n b1 b2 w1 →
    (6 < n.toNat ∨ ∃ b ∈ [b1, b2, w1.extractLsb' 24 8, w1.extractLsb' 16 8, w1.extractLsb' 8 8,
      w1.extractLsb' 0 8].take n.toNat, b.getLsbD 7 = true) →
    exec i s = .next (appended s [.dg .range (word0 i)])) ∧
  ∀ s g st n b1 b2 w1,
    exec (.u3Other g st n b1 b2 w1) s = .next (appended s [.dg .unsupported (word0 (.u3Other g st n b1 b2 w1))])

/-- R271, R272: a complete SysEx7 is emitted alone; a start opens the group's buffer, dropping a stale one with no item;
a payload over SYSEX_MAX does neither and gives SYSEX_OVERFLOW. -/
def Obligations.Sysex7CompleteAndStart : Prop :=
  ∀ s g n b1 b2 w1 p, Sysex7Payload n b1 b2 w1 p →
    (within s.sysexMax p.length →
      exec (.u3Complete g n b1 b2 w1) s = .next (appended s [.ev (.sysEx7 g p)]) ∧
      ∃ t, exec (.u3Start g n b1 b2 w1) s = .next t ∧ Sx7Update s g (some p) t) ∧
    ∀ m, s.sysexMax = .bytes m → m < p.length →
      exec (.u3Complete g n b1 b2 w1) s = .next (appended s [.dg .sysexOverflow (BitVec.ofNat 32 m)]) ∧
      ∃ t, exec (.u3Start g n b1 b2 w1) s = .next t ∧
        Sx7Update (appended s [.dg .sysexOverflow (BitVec.ofNat 32 m)]) g none t

/-- R273, R274: a continue extends the group's open buffer and an end closes it and emits it; with no open buffer either
gives SYSEX_SEQUENCE; past SYSEX_MAX either closes it with SYSEX_OVERFLOW. -/
def Obligations.Sysex7ContinueAndEnd : Prop :=
  ∀ s g n b1 b2 w1 p, Sysex7Payload n b1 b2 w1 p →
    (s.sx7At g = none →
      exec (.u3Continue g n b1 b2 w1) s =
        .next (appended s [.dg .sysexSequence (word0 (.u3Continue g n b1 b2 w1))]) ∧
      exec (.u3End g n b1 b2 w1) s = .next (appended s [.dg .sysexSequence (word0 (.u3End g n b1 b2 w1))])) ∧
    (∀ buf, s.sx7At g = some buf → within s.sysexMax (buf.length + p.length) →
      (∃ t, exec (.u3Continue g n b1 b2 w1) s = .next t ∧ Sx7Update s g (some (buf ++ p)) t) ∧
      ∃ t, exec (.u3End g n b1 b2 w1) s = .next t ∧
        Sx7Update (appended s [.ev (.sysEx7 g (buf ++ p))]) g none t) ∧
    ∀ buf m i, s.sx7At g = some buf → s.sysexMax = .bytes m → m < buf.length + p.length →
      i = .u3Continue g n b1 b2 w1 ∨ i = .u3End g n b1 b2 w1 →
      ∃ t, exec i s = .next t ∧ Sx7Update (appended s [.dg .sysexOverflow (BitVec.ofNat 32 m)]) g none t

/-- R280, R285: a SysEx8 packet with numBytes 0 or over 14 is dropped with RANGE; an undecoded status, Mixed Data Set
among them, with UNSUPPORTED, before any other check. -/
def Obligations.Sysex8Checks : Prop :=
  (∀ s g n (b1 b2 : Byte) (w1 w2 w3 : Word) i,
    i = .u5Complete g n b1 b2 w1 w2 w3 ∨ i = .u5Start g n b1 b2 w1 w2 w3 ∨ i = .u5Continue g n b1 b2 w1 w2 w3 ∨
      i = .u5End g n b1 b2 w1 w2 w3 →
    n.toNat = 0 ∨ 14 < n.toNat → exec i s = .next (appended s [.dg .range (word0 i)])) ∧
  ∀ s g st n b1 b2 w1 w2 w3,
    exec (.u5Other g st n b1 b2 w1 w2 w3) s =
      .next (appended s [.dg .unsupported (word0 (.u5Other g st n b1 b2 w1 w2 w3))])

/-- R281, R282: as for SysEx7, with the stream identifier. -/
def Obligations.Sysex8CompleteAndStart : Prop :=
  ∀ s g n stream b2 w1 w2 w3 p, Sysex8Payload n b2 w1 w2 w3 p →
    (within s.sysexMax p.length →
      exec (.u5Complete g n stream b2 w1 w2 w3) s = .next (appended s [.ev (.sysEx8 g stream p)]) ∧
      ∃ t, exec (.u5Start g n stream b2 w1 w2 w3) s = .next t ∧ Sx8Update s g (some ⟨stream, p⟩) t) ∧
    ∀ m, s.sysexMax = .bytes m → m < p.length →
      exec (.u5Complete g n stream b2 w1 w2 w3) s = .next (appended s [.dg .sysexOverflow (BitVec.ofNat 32 m)]) ∧
      ∃ t, exec (.u5Start g n stream b2 w1 w2 w3) s = .next t ∧
        Sx8Update (appended s [.dg .sysexOverflow (BitVec.ofNat 32 m)]) g none t

/-- R283, R284: as for SysEx7; a packet of another stream than the open buffer's gives SYSEX_STREAM and the buffer is
kept. -/
def Obligations.Sysex8ContinueAndEnd : Prop :=
  ∀ s g n stream b2 w1 w2 w3 p, Sysex8Payload n b2 w1 w2 w3 p →
    (∀ i, i = .u5Continue g n stream b2 w1 w2 w3 ∨ i = .u5End g n stream b2 w1 w2 w3 →
      (s.sx8At g = none → exec i s = .next (appended s [.dg .sysexSequence (word0 i)])) ∧
      (∀ buf, s.sx8At g = some buf → stream ≠ buf.stream →
        exec i s = .next (appended s [.dg .sysexStream (word0 i)])) ∧
      ∀ buf m, s.sx8At g = some buf → stream = buf.stream → s.sysexMax = .bytes m →
        m < buf.payload.length + p.length →
        ∃ t, exec i s = .next t ∧ Sx8Update (appended s [.dg .sysexOverflow (BitVec.ofNat 32 m)]) g none t) ∧
    ∀ buf, s.sx8At g = some buf → stream = buf.stream → within s.sysexMax (buf.payload.length + p.length) →
      (∃ t, exec (.u5Continue g n stream b2 w1 w2 w3) s = .next t ∧
        Sx8Update s g (some ⟨stream, buf.payload ++ p⟩) t) ∧
      ∃ t, exec (.u5End g n stream b2 w1 w2 w3) s = .next t ∧
        Sx8Update (appended s [.ev (.sysEx8 g stream (buf.payload ++ p))]) g none t

/-- R286: a packet reads and writes only the buffer of its own kind in its own group. -/
def Obligations.SysexBuffersAreIndependent : Prop :=
  ∀ w0 rest i s t, decodeUmp w0 rest = .ok i → exec i s = .next t →
    (∀ h, h ≠ w0.extractLsb' 24 4 ∨ w0.extractLsb' 28 4 ≠ 0x3#4 → t.sx7At h = s.sx7At h) ∧
    ∀ h, h ≠ w0.extractLsb' 24 4 ∨ w0.extractLsb' 28 4 ≠ 0x5#4 → t.sx8At h = s.sx8At h

/-! ### The RPN/NRPN assembler -/

/-- R313 to R317: a number controller stores its half, discards a number of the other kind and pending data entry, and
clears the record on the null number; it is consumed. -/
def Obligations.NumberControllers : Prop :=
  ∀ s g ch v,
    let r := s.raAt g ch
    let null (m l : Option U7) (r : RaRec) : RaRec :=
      if m = some 127 ∧ l = some 127 then ⟨none, none, none, none, none⟩ else r
    let msb (k : ParamKind) : RaRec :=
      let l := if r.kind ≠ none ∧ r.kind ≠ some k then none else r.nLSB
      null (some v) l ⟨some k, some v, l, none, none⟩
    let lsb (k : ParamKind) : RaRec :=
      let m := if r.kind ≠ none ∧ r.kind ≠ some k then none else r.nMSB
      null m (some v) ⟨some k, m, some v, none, none⟩
    (∃ t, exec (.raCc101 g ch v) s = .next t ∧ RaUpdate s g ch (msb .rpn) t) ∧
    (∃ t, exec (.raCc100 g ch v) s = .next t ∧ RaUpdate s g ch (lsb .rpn) t) ∧
    (∃ t, exec (.raCc99 g ch v) s = .next t ∧ RaUpdate s g ch (msb .nrpn) t) ∧
    ∃ t, exec (.raCc98 g ch v) s = .next t ∧ RaUpdate s g ch (lsb .nrpn) t

/-- R318, R319: data entry. It needs a complete number (kind k, halves m and l); without one it is consumed and changes
nothing. -/
def Obligations.DataEntryControllers : Prop :=
  ∀ s g ch v,
    (∀ k m l, (s.raAt g ch).kind = some k → (s.raAt g ch).nMSB = some m → (s.raAt g ch).nLSB = some l →
      (∃ t, exec (.raCc6 g ch v) s = .next t ∧
        RaUpdate (appended s (if s.cfg.getLsbD 1 = true then
            [.ev (.paramNumber g ch k (m ++ l) .abs (.v7 v 0))] else []))
          g ch ⟨some k, some m, some l, some v, none⟩ t) ∧
      (∀ d, (s.raAt g ch).dMSB = some d → ∃ t, exec (.raCc38 g ch v) s = .next t ∧
        RaUpdate (appended s [.ev (.paramNumber g ch k (m ++ l) .abs (.v7 d v))])
          g ch ⟨some k, some m, some l, some d, some v⟩ t)) ∧
    ((s.raAt g ch).kind = none ∨ (s.raAt g ch).nMSB = none ∨ (s.raAt g ch).nLSB = none →
      exec (.raCc6 g ch v) s = .next s ∧ exec (.raCc38 g ch v) s = .next s) ∧
    ((s.raAt g ch).dMSB = none → exec (.raCc38 g ch v) s = .next s)

/-- R320, R321: increment and decrement emit at once when the number is complete, and keep the record. -/
def Obligations.IncrementAndDecrement : Prop :=
  ∀ s g ch v,
    (∀ k m l, (s.raAt g ch).kind = some k → (s.raAt g ch).nMSB = some m → (s.raAt g ch).nLSB = some l →
      exec (.raCc96 g ch v) s = .next (appended s [.ev (.paramNumber g ch k (m ++ l) .inc (.v7 0 v))]) ∧
      exec (.raCc97 g ch v) s = .next (appended s [.ev (.paramNumber g ch k (m ++ l) .dec (.v7 0 v))])) ∧
    ((s.raAt g ch).kind = none ∨ (s.raAt g ch).nMSB = none ∨ (s.raAt g ch).nLSB = none →
      exec (.raCc96 g ch v) s = .next s ∧ exec (.raCc97 g ch v) s = .next s)

/-- R322, R323: controller 121 always passes through and clears the record when CFG.CC121_RESETS_RA is 1; every other
controller passes through unchanged. -/
def Obligations.PassedThroughControllers : Prop :=
  ∀ s g ch ctrl v,
    (s.cfg.getLsbD 4 = true → ∃ t, exec (.raCc121 g ch v) s = .next t ∧
      RaUpdate (appended s [.ev (.controlChange1 g ch 121 v)]) g ch ⟨none, none, none, none, none⟩ t) ∧
    (s.cfg.getLsbD 4 = false →
      exec (.raCc121 g ch v) s = .next (appended s [.ev (.controlChange1 g ch 121 v)])) ∧
    exec (.raPass g ch ctrl v) s = .next (appended s [.ev (.controlChange1 g ch ctrl v)])

/-- R324, R325: a control change of (g, ch) writes no other RA record and no other state but OUT; an MT 0x4 message
writes no RA record. -/
def Obligations.RaRecordsAreIndependent : Prop :=
  (∀ g ch ctrl v s t, exec (decodeCc g ch ctrl v) s = .next t →
    (∀ h d, ¬ (h = g ∧ d = ch) → t.raAt h d = s.raAt h d) ∧ { t with ra := s.ra, out := s.out } = s) ∧
  ∀ w0 rest i s t, decodeUmp w0 rest = .ok i → w0.extractLsb' 28 4 = 0x4#4 → exec i s = .next t → t.ra = s.ra

/-- R129 (RPNSET and NRPNSET), T5: number then data entry gives exactly one absolute-set event, from any record, when the
number's MSB is not 127 and data entry waits for its LSB. -/
def Obligations.ParameterAssembly : Prop :=
  ∀ s g ch (m l a b : U7), m ≠ 127 → s.cfg.getLsbD 1 = false →
    (∃ t, execAll [.raCc101 g ch m, .raCc100 g ch l, .raCc6 g ch a, .raCc38 g ch b] s = .next t ∧
      RaUpdate (appended s [.ev (.paramNumber g ch .rpn (m ++ l) .abs (.v7 a b))])
        g ch ⟨some .rpn, some m, some l, some a, some b⟩ t) ∧
    ∃ t, execAll [.raCc99 g ch m, .raCc98 g ch l, .raCc6 g ch a, .raCc38 g ch b] s = .next t ∧
      RaUpdate (appended s [.ev (.paramNumber g ch .nrpn (m ++ l) .abs (.v7 a b))])
        g ch ⟨some .nrpn, some m, some l, some a, some b⟩ t

/-- R129 (RPNNULL), R313, T6: after the null number of either pair, RPN (101, 100) or NRPN (99, 98), data entry,
increment and decrement emit nothing, from any record. -/
def Obligations.NullNumberSilencesDataEntry : Prop :=
  ∀ s g ch (a b c d : U7),
    (∃ t, execAll
      [.raCc101 g ch 127, .raCc100 g ch 127, .raCc6 g ch a, .raCc38 g ch b, .raCc96 g ch c, .raCc97 g ch d] s
        = .next t ∧ t.out = s.out) ∧
    ∃ t, execAll
      [.raCc99 g ch 127, .raCc98 g ch 127, .raCc6 g ch a, .raCc38 g ch b, .raCc96 g ch c, .raCc97 g ch d] s
        = .next t ∧ t.out = s.out

/-! ### Tags, numbers and start-of-run premises -/

/-- R114: the universal tag of a SysEx event is read from the first payload byte. -/
def Obligations.UniversalTag : Prop :=
  (∀ g (p : List U7), (Event.sysEx7 g p).univ = some
    (if p.head? = some 0x7E then .nonRealtime else if p.head? = some 0x7F then .realtime else .manufacturer)) ∧
  ∀ g st (p : List Byte), (Event.sysEx8 g st p).univ = some
    (if p.head? = some 0x7E then .nonRealtime else if p.head? = some 0x7F then .realtime else .manufacturer)

/-- R361: the numbers of the diagnostic codes. -/
def Obligations.DiagnosticNumbers : Prop :=
  [DiagCode.orphanData, .truncated, .sysexAborted, .orphanEox, .undefined, .sysexOverflow, .length, .range,
    .unsupported, .sysexSequence, .sysexStream].map (fun c => c.num.toNat) = [1, 2, 3, 4, 5, 6, 7, 8, 9, 10, 11]

/-- R405: RESET leaves Quiescent of the CFG it finds; Configured(cfg) is Quiescent(cfg & 0x0000_0F3F) with OUT empty; and
the state after power-on is PowerOn. -/
def Obligations.StartOfRunPremises : Prop :=
  PowerOn State.reset ∧ (∀ s, ∃ t, exec .reset s = .next t ∧ Quiescent s.cfg t) ∧
  ∀ c s, Configured c s → Quiescent (c &&& 0x00000F3F#32) s ∧ s.out = []
end

