-- ==== Sys2Proof/Laws/Decode.lean ====
section
/-! SUPPORT. The fields of the words the encoder builds (Decode.lean), and the words rebuilt from their fields, through
their values as natural numbers. -/

namespace Sys2Proof

/-- The value of two fields side by side. -/
theorem toNat_fields {a b : Nat} (x : BitVec a) (y : BitVec b) :
    (x ++ y).toNat = x.toNat * 2 ^ b + y.toNat := by
  rw [BitVec.toNat_append, ← Nat.shiftLeft_add_eq_or_of_lt y.isLt, Nat.shiftLeft_eq]

/-- The value of a field. -/
theorem toNat_field {a : Nat} (x : BitVec a) (i n : Nat) :
    (x.extractLsb' i n).toNat = x.toNat / 2 ^ i % 2 ^ n := by
  rw [BitVec.extractLsb'_toNat, Nat.shiftRight_eq_div_pow]

section Ump
variable (mt g st x : U4) (b1 b2 status : Byte) (time : U16) (r : BitVec 24)

theorem umpWord_toNat : (umpWord mt g st x b1 b2).toNat =
    ((((mt.toNat * 2 ^ 4 + g.toNat) * 2 ^ 4 + st.toNat) * 2 ^ 4 + x.toNat) * 2 ^ 8 + b1.toNat) * 2 ^ 8 + b2.toNat := by
  refine (toNat_fields _ _).trans ?_
  rw [toNat_fields, toNat_fields, toNat_fields, toNat_fields]

theorem umpWord0_toNat : (umpWord0 g st x time).toNat =
    ((g.toNat * 2 ^ 4 + st.toNat) * 2 ^ 4 + x.toNat) * 2 ^ 16 + time.toNat := by
  refine (toNat_fields _ _).trans ?_
  rw [toNat_fields, toNat_fields, toNat_fields]
  simp

theorem umpWord1_toNat : (umpWord1 g status b1 b2).toNat =
    (((2 ^ 4 + g.toNat) * 2 ^ 8 + status.toNat) * 2 ^ 8 + b1.toNat) * 2 ^ 8 + b2.toNat := by
  refine (toNat_fields _ _).trans ?_
  rw [toNat_fields, toNat_fields, toNat_fields]
  simp

theorem umpWordR_toNat : (umpWordR mt g r).toNat = (mt.toNat * 2 ^ 4 + g.toNat) * 2 ^ 24 + r.toNat := by
  refine (toNat_fields _ _).trans ?_
  rw [toNat_fields]

/-! The fields of each word. -/

@[simp] theorem mtOf_umpWord : mtOf (umpWord mt g st x b1 b2) = mt := by
  apply BitVec.eq_of_toNat_eq; rw [mtOf, toNat_field, umpWord_toNat]; omega
@[simp] theorem grpOf_umpWord : grpOf (umpWord mt g st x b1 b2) = g := by
  apply BitVec.eq_of_toNat_eq; rw [grpOf, toNat_field, umpWord_toNat]; omega
@[simp] theorem stOf_umpWord : stOf (umpWord mt g st x b1 b2) = st := by
  apply BitVec.eq_of_toNat_eq; rw [stOf, toNat_field, umpWord_toNat]; omega
@[simp] theorem chOf_umpWord : chOf (umpWord mt g st x b1 b2) = x := by
  apply BitVec.eq_of_toNat_eq; rw [chOf, toNat_field, umpWord_toNat]; omega
@[simp] theorem b1Of_umpWord : b1Of (umpWord mt g st x b1 b2) = b1 := by
  apply BitVec.eq_of_toNat_eq; rw [b1Of, toNat_field, umpWord_toNat]; omega
@[simp] theorem b2Of_umpWord : b2Of (umpWord mt g st x b1 b2) = b2 := by
  apply BitVec.eq_of_toNat_eq; rw [b2Of, toNat_field, umpWord_toNat]; omega
@[simp] theorem op_umpWord (op : BitVec 3) :
    (umpWord mt g (0#1 ++ op) x b1 b2).extractLsb' 20 3 = op := by
  apply BitVec.eq_of_toNat_eq
  have h : (0#1 ++ op : U4).toNat = op.toNat := by
    refine (toNat_fields _ _).trans ?_; simp
  rw [toNat_field, umpWord_toNat, h]; omega

@[simp] theorem mtOf_umpWord0 : mtOf (umpWord0 g st x time) = 0x0#4 := by
  apply BitVec.eq_of_toNat_eq; rw [mtOf, toNat_field, umpWord0_toNat]; simp; omega
@[simp] theorem grpOf_umpWord0 : grpOf (umpWord0 g st x time) = g := by
  apply BitVec.eq_of_toNat_eq; rw [grpOf, toNat_field, umpWord0_toNat]; omega
@[simp] theorem stOf_umpWord0 : stOf (umpWord0 g st x time) = st := by
  apply BitVec.eq_of_toNat_eq; rw [stOf, toNat_field, umpWord0_toNat]; omega
@[simp] theorem chOf_umpWord0 : chOf (umpWord0 g st x time) = x := by
  apply BitVec.eq_of_toNat_eq; rw [chOf, toNat_field, umpWord0_toNat]; omega
@[simp] theorem timeOf_umpWord0 : timeOf (umpWord0 g st x time) = time := by
  apply BitVec.eq_of_toNat_eq; rw [timeOf, toNat_field, umpWord0_toNat]; omega

@[simp] theorem mtOf_umpWord1 : mtOf (umpWord1 g status b1 b2) = 0x1#4 := by
  apply BitVec.eq_of_toNat_eq; rw [mtOf, toNat_field, umpWord1_toNat]; simp; omega
@[simp] theorem grpOf_umpWord1 : grpOf (umpWord1 g status b1 b2) = g := by
  apply BitVec.eq_of_toNat_eq; rw [grpOf, toNat_field, umpWord1_toNat]; omega
@[simp] theorem statusOf_umpWord1 : statusOf (umpWord1 g status b1 b2) = status := by
  apply BitVec.eq_of_toNat_eq; rw [statusOf, toNat_field, umpWord1_toNat]; omega
@[simp] theorem b1Of_umpWord1 : b1Of (umpWord1 g status b1 b2) = b1 := by
  apply BitVec.eq_of_toNat_eq; rw [b1Of, toNat_field, umpWord1_toNat]; omega
@[simp] theorem b2Of_umpWord1 : b2Of (umpWord1 g status b1 b2) = b2 := by
  apply BitVec.eq_of_toNat_eq; rw [b2Of, toNat_field, umpWord1_toNat]; omega

@[simp] theorem mtOf_umpWordR : mtOf (umpWordR mt g r) = mt := by
  apply BitVec.eq_of_toNat_eq; rw [mtOf, toNat_field, umpWordR_toNat]; omega
@[simp] theorem grpOf_umpWordR : grpOf (umpWordR mt g r) = g := by
  apply BitVec.eq_of_toNat_eq; rw [grpOf, toNat_field, umpWordR_toNat]; omega
@[simp] theorem lowOf_umpWordR : lowOf (umpWordR mt g r) = r := by
  apply BitVec.eq_of_toNat_eq; rw [lowOf, toNat_field, umpWordR_toNat]; omega

end Ump

/-! Words rebuilt from their fields. -/

theorem umpWord_fields (w : Word) : umpWord (mtOf w) (grpOf w) (stOf w) (chOf w) (b1Of w) (b2Of w) = w := by
  apply BitVec.eq_of_toNat_eq
  rw [umpWord_toNat, mtOf, grpOf, stOf, chOf, b1Of, b2Of]
  simp only [toNat_field]
  omega

theorem umpWord0_fields (w : Word) (h : mtOf w = 0x0#4) :
    umpWord0 (grpOf w) (stOf w) (chOf w) (timeOf w) = w := by
  have h' := congrArg BitVec.toNat h
  rw [mtOf, toNat_field] at h'
  apply BitVec.eq_of_toNat_eq
  rw [umpWord0_toNat, grpOf, stOf, chOf, timeOf]
  simp only [toNat_field] at h' ⊢
  simp at h'
  omega

theorem umpWord1_fields (w : Word) (h : mtOf w = 0x1#4) :
    umpWord1 (grpOf w) (statusOf w) (b1Of w) (b2Of w) = w := by
  have h' := congrArg BitVec.toNat h
  rw [mtOf, toNat_field] at h'
  apply BitVec.eq_of_toNat_eq
  rw [umpWord1_toNat, grpOf, statusOf, b1Of, b2Of]
  simp only [toNat_field] at h' ⊢
  simp at h'
  omega

theorem umpWordR_fields (w : Word) : umpWordR (mtOf w) (grpOf w) (lowOf w) = w := by
  apply BitVec.eq_of_toNat_eq
  rw [umpWordR_toNat, mtOf, grpOf, lowOf]
  simp only [toNat_field]
  omega

/-- The words of the port's operand (R80). -/
theorem portData_toNat (w0 w1 w2 w3 : Word) : (portData w0 w1 w2 w3).toNat =
    ((w3.toNat * 2 ^ 32 + w2.toNat) * 2 ^ 32 + w1.toNat) * 2 ^ 32 + w0.toNat := by
  refine (toNat_fields _ _).trans ?_
  rw [toNat_fields, toNat_fields]

@[simp] theorem dataWord_portData_0 (w0 w1 w2 w3 : Word) : dataWord (portData w0 w1 w2 w3) 0 = w0 := by
  apply BitVec.eq_of_toNat_eq; rw [dataWord, toNat_field, portData_toNat]; omega
@[simp] theorem dataWord_portData_1 (w0 w1 w2 w3 : Word) : dataWord (portData w0 w1 w2 w3) 1 = w1 := by
  apply BitVec.eq_of_toNat_eq; rw [dataWord, toNat_field, portData_toNat]; omega
@[simp] theorem dataWord_portData_2 (w0 w1 w2 w3 : Word) : dataWord (portData w0 w1 w2 w3) 2 = w2 := by
  apply BitVec.eq_of_toNat_eq; rw [dataWord, toNat_field, portData_toNat]; omega
@[simp] theorem dataWord_portData_3 (w0 w1 w2 w3 : Word) : dataWord (portData w0 w1 w2 w3) 3 = w3 := by
  apply BitVec.eq_of_toNat_eq; rw [dataWord, toNat_field, portData_toNat]; omega

/-- A one-word operand. -/
@[simp] theorem dataWord_setWidth (w : Word) : dataWord (w.setWidth 128) 0 = w := by
  apply BitVec.eq_of_toNat_eq
  rw [dataWord, toNat_field, BitVec.toNat_setWidth]; omega

@[simp] theorem byte_setWidth (b : Byte) : (b.setWidth 128).extractLsb' 0 8 = b := by
  apply BitVec.eq_of_toNat_eq
  rw [toNat_field, BitVec.toNat_setWidth]; omega

/-! The fields of a byte. -/

theorem channel_toNat (nib ch : U4) : (nib ++ ch : Byte).toNat = nib.toNat * 2 ^ 4 + ch.toNat :=
  toNat_fields nib ch

@[simp] theorem channel_nib (nib ch : U4) : (nib ++ ch : Byte).extractLsb' 4 4 = nib := by
  apply BitVec.eq_of_toNat_eq; rw [toNat_field, channel_toNat]; omega
@[simp] theorem channel_ch (nib ch : U4) : (nib ++ ch : Byte).extractLsb' 0 4 = ch := by
  apply BitVec.eq_of_toNat_eq; rw [toNat_field, channel_toNat]; omega
/-- Bit 7 of a byte is the high bit of its high nibble. -/
theorem channel_bit7 (nib ch : U4) : (nib ++ ch : Byte).getLsbD 7 = nib.getLsbD 3 := by
  have h := nib.isLt
  have h' := ch.isLt
  rw [BitVec.getLsbD, BitVec.getLsbD, Nat.testBit_eq_decide_div_mod_eq, Nat.testBit_eq_decide_div_mod_eq,
    channel_toNat]
  congr 1
  apply propext
  omega
theorem channel_fields (b : Byte) : (b.extractLsb' 4 4 ++ b.extractLsb' 0 4 : Byte) = b := by
  apply BitVec.eq_of_toNat_eq
  rw [channel_toNat]; simp only [toNat_field]; omega

@[simp] theorem dataByteOf_toNat (v : U7) : (dataByteOf v).toNat = v.toNat := by
  refine (toNat_fields _ _).trans ?_; simp
@[simp] theorem low_dataByteOf (v : U7) : (dataByteOf v).extractLsb' 0 7 = v := by
  apply BitVec.eq_of_toNat_eq; rw [toNat_field, dataByteOf_toNat]; omega
@[simp] theorem bit7_dataByteOf (v : U7) : (dataByteOf v).getLsbD 7 = false := by
  rw [BitVec.getLsbD, Nat.testBit_eq_decide_div_mod_eq, dataByteOf_toNat]
  have := v.isLt
  simp; omega

/-! ### The decoder, by the fields of what it reads -/

/-- A data byte (R82). -/
@[simp] theorem decodeByte_data (sel : DataRow) (v : U7) : decodeByte sel (dataByteOf v) = decodeData sel v := by
  have h : ((dataByteOf v).extractLsb' 4 4).toNat < 8 := by
    have := v.isLt
    rw [toNat_field, dataByteOf_toNat]
    omega
  unfold decodeByte
  split <;> simp_all

/-- A status byte, by its high nibble (R82). -/
theorem decodeByte_channel (sel : DataRow) (nib ch : U4) : decodeByte sel (nib ++ ch) =
    match nib.toNat with
    | 0x8 => .noteoff ch
    | 0x9 => .noteon ch
    | 0xA => .polypress ch
    | 0xB => .cc ch
    | 0xC => .progchg ch
    | 0xD => .chanpress ch
    | 0xE => .pitchbend ch
    | 0xF => decodeSystem ch
    | _ => decodeData sel ((nib ++ ch : Byte).extractLsb' 0 7) := by
  simp only [decodeByte, channel_nib, channel_ch] <;> split <;> simp_all

/-- A byte with bit 7 clear is the data byte of its low seven bits (R82). -/
theorem dataByteOf_low {b : Byte} (h : b.getLsbD 7 = false) : dataByteOf (b.extractLsb' 0 7) = b := by
  apply BitVec.eq_of_toNat_eq
  have := b.isLt
  rw [dataByteOf_toNat, toNat_field]
  rw [BitVec.getLsbD, Nat.testBit_eq_decide_div_mod_eq] at h
  simp at h
  omega

/-- An opcode nibble with its high bit clear (R248). -/
theorem op3_lt (op : BitVec 3) : (0#1 ++ op : U4).toNat < 8 := by
  have := op.isLt
  rw [toNat_fields]
  simp
  omega

/-- The row of a status byte does not depend on which data-byte row is selected (R140). -/
theorem decodeByte_status {b : Byte} (h : b.getLsbD 7 = true) (sel sel' : DataRow) :
    decodeByte sel b = decodeByte sel' b := by
  have hb := b.isLt
  have h8 : 8 ≤ (b.extractLsb' 4 4).toNat := by
    rw [BitVec.getLsbD, Nat.testBit_eq_decide_div_mod_eq] at h
    rw [toNat_field]
    simp at h
    omega
  have h16 := (b.extractLsb' 4 4).isLt
  unfold decodeByte
  generalize (b.extractLsb' 4 4).toNat = n at h8 h16 ⊢
  interval_cases n <;> rfl

/-- A fallback row of MT 0x0 (R224). -/
theorem decodeU0_other {w : Word} (h : 3#4 ≤ stOf w) : decodeU0 w = .u0Other (grpOf w) (stOf w) (chOf w) (timeOf w) := by
  have : 3 ≤ (stOf w).toNat := h
  unfold decodeU0
  split <;> first | omega | rfl

/-- A fallback row of MT 0x1 (R238). -/
theorem decodeU1_other {w : Word} (h : statusOf w ∉ u1Statuses) :
    decodeU1 w = .u1Other (grpOf w) (statusOf w) (b1Of w) (b2Of w) := by
  have key : ∀ n : Nat, BitVec.ofNat 8 n ∈ u1Statuses → (statusOf w).toNat ≠ n := by
    rintro n hn rfl
    exact h (by simpa using hn)
  unfold decodeU1
  split <;> first | rfl | (exact absurd ‹_› (key _ (by decide)))

/-- A reserved opcode of MT 0x2 (R248). -/
theorem decodeU2_other07 {w : Word} (h : (stOf w).toNat < 8) :
    decodeU2 w = .u2Other07 (grpOf w) (w.extractLsb' 20 3) (chOf w) (b1Of w) (b2Of w) := by
  unfold decodeU2
  split <;> first | omega | rfl

/-- A fallback row of MT 0x3 (R275). -/
theorem decodeU3_other {w w1 : Word} (h : 4#4 ≤ stOf w) :
    decodeU3 w w1 = .u3Other (grpOf w) (stOf w) (chOf w) (b1Of w) (b2Of w) w1 := by
  have : 4 ≤ (stOf w).toNat := h
  unfold decodeU3
  split <;> first | omega | rfl

/-- A fallback row of MT 0x5 (R285). -/
theorem decodeU5_other {w w1 w2 w3 : Word} (h : 4#4 ≤ stOf w) :
    decodeU5 w w1 w2 w3 = .u5Other (grpOf w) (stOf w) (chOf w) (b1Of w) (b2Of w) w1 w2 w3 := by
  have : 4 ≤ (stOf w).toNat := h
  unfold decodeU5
  split <;> first | omega | rfl

/-- A controller with no row of its own (R323). -/
theorem decodeCc_pass (g ch : U4) {ctrl : U7} (v : U7) (h : ctrl ∉ raControllers) :
    decodeCc g ch ctrl v = .raPass g ch ctrl v := by
  have key : ∀ n : Nat, BitVec.ofNat 7 n ∈ raControllers → ctrl.toNat ≠ n := by
    rintro n hn rfl
    exact h (by simpa using hn)
  unfold decodeCc
  split <;> first | rfl | (exact absurd ‹_› (key _ (by decide)))

end Sys2Proof
end

