-- ==== Sys2Proof/Laws/State.lean ====
section
/-! SUPPORT. One lemma per field per named update of State (Machine/Ops.lean), so that no later proof unfolds a record
update. -/

namespace Sys2Proof.Machine

variable (s : State)

/-! ### emit -/

@[simp] theorem State.emit_cfg (e : Event) :
    (s.emit e).cfg = s.cfg := rfl

@[simp] theorem State.emit_mp (e : Event) :
    (s.emit e).mp = s.mp := rfl

@[simp] theorem State.emit_wf (e : Event) :
    (s.emit e).wf = s.wf := rfl

@[simp] theorem State.emit_up (e : Event) :
    (s.emit e).up = s.up := rfl

@[simp] theorem State.emit_ra (e : Event) :
    (s.emit e).ra = s.ra := rfl

@[simp] theorem State.emit_out (e : Event) :
    (s.emit e).out = s.out ++ [.ev e] := rfl

@[simp] theorem State.emit_sysexMax (e : Event) :
    (s.emit e).sysexMax = s.sysexMax := rfl

@[simp] theorem State.emit_inp (e : Event) :
    (s.emit e).inp = s.inp := rfl

/-! ### diag -/

@[simp] theorem State.diag_cfg (c : DiagCode) (info : Word) :
    (s.diag c info).cfg = s.cfg := rfl

@[simp] theorem State.diag_mp (c : DiagCode) (info : Word) :
    (s.diag c info).mp = s.mp := rfl

@[simp] theorem State.diag_wf (c : DiagCode) (info : Word) :
    (s.diag c info).wf = s.wf := rfl

@[simp] theorem State.diag_up (c : DiagCode) (info : Word) :
    (s.diag c info).up = s.up := rfl

@[simp] theorem State.diag_ra (c : DiagCode) (info : Word) :
    (s.diag c info).ra = s.ra := rfl

@[simp] theorem State.diag_out (c : DiagCode) (info : Word) :
    (s.diag c info).out = s.out ++ [.dg c info] := rfl

@[simp] theorem State.diag_sysexMax (c : DiagCode) (info : Word) :
    (s.diag c info).sysexMax = s.sysexMax := rfl

@[simp] theorem State.diag_inp (c : DiagCode) (info : Word) :
    (s.diag c info).inp = s.inp := rfl

/-! ### overflowDiag -/

@[simp] theorem State.overflowDiag_cfg :
    (s.overflowDiag).cfg = s.cfg := rfl

@[simp] theorem State.overflowDiag_mp :
    (s.overflowDiag).mp = s.mp := rfl

@[simp] theorem State.overflowDiag_wf :
    (s.overflowDiag).wf = s.wf := rfl

@[simp] theorem State.overflowDiag_up :
    (s.overflowDiag).up = s.up := rfl

@[simp] theorem State.overflowDiag_ra :
    (s.overflowDiag).ra = s.ra := rfl

@[simp] theorem State.overflowDiag_out :
    (s.overflowDiag).out = s.out ++ [.dg .sysexOverflow (maxInfo s.sysexMax)] := rfl

@[simp] theorem State.overflowDiag_sysexMax :
    (s.overflowDiag).sysexMax = s.sysexMax := rfl

@[simp] theorem State.overflowDiag_inp :
    (s.overflowDiag).inp = s.inp := rfl

/-! ### setSx7 -/

@[simp] theorem State.setSx7_cfg (g : U4) (b : Option (List U7)) :
    (s.setSx7 g b).cfg = s.cfg := rfl

@[simp] theorem State.setSx7_mp (g : U4) (b : Option (List U7)) :
    (s.setSx7 g b).mp = s.mp := rfl

@[simp] theorem State.setSx7_wf (g : U4) (b : Option (List U7)) :
    (s.setSx7 g b).wf = s.wf := rfl

@[simp] theorem State.setSx7_up (g : U4) (b : Option (List U7)) :
    (s.setSx7 g b).up = { s.up with sx7 := s.up.sx7.set g.toNat b g.isLt } := rfl

@[simp] theorem State.setSx7_ra (g : U4) (b : Option (List U7)) :
    (s.setSx7 g b).ra = s.ra := rfl

@[simp] theorem State.setSx7_out (g : U4) (b : Option (List U7)) :
    (s.setSx7 g b).out = s.out := rfl

@[simp] theorem State.setSx7_sysexMax (g : U4) (b : Option (List U7)) :
    (s.setSx7 g b).sysexMax = s.sysexMax := rfl

@[simp] theorem State.setSx7_inp (g : U4) (b : Option (List U7)) :
    (s.setSx7 g b).inp = s.inp := rfl

/-! ### setSx8 -/

@[simp] theorem State.setSx8_cfg (g : U4) (b : Option Sx8) :
    (s.setSx8 g b).cfg = s.cfg := rfl

@[simp] theorem State.setSx8_mp (g : U4) (b : Option Sx8) :
    (s.setSx8 g b).mp = s.mp := rfl

@[simp] theorem State.setSx8_wf (g : U4) (b : Option Sx8) :
    (s.setSx8 g b).wf = s.wf := rfl

@[simp] theorem State.setSx8_up (g : U4) (b : Option Sx8) :
    (s.setSx8 g b).up = { s.up with sx8 := s.up.sx8.set g.toNat b g.isLt } := rfl

@[simp] theorem State.setSx8_ra (g : U4) (b : Option Sx8) :
    (s.setSx8 g b).ra = s.ra := rfl

@[simp] theorem State.setSx8_out (g : U4) (b : Option Sx8) :
    (s.setSx8 g b).out = s.out := rfl

@[simp] theorem State.setSx8_sysexMax (g : U4) (b : Option Sx8) :
    (s.setSx8 g b).sysexMax = s.sysexMax := rfl

@[simp] theorem State.setSx8_inp (g : U4) (b : Option Sx8) :
    (s.setSx8 g b).inp = s.inp := rfl

/-! ### setRa -/

@[simp] theorem State.setRa_cfg (g c : U4) (r : RaRec) :
    (s.setRa g c r).cfg = s.cfg := rfl

@[simp] theorem State.setRa_mp (g c : U4) (r : RaRec) :
    (s.setRa g c r).mp = s.mp := rfl

@[simp] theorem State.setRa_wf (g c : U4) (r : RaRec) :
    (s.setRa g c r).wf = s.wf := rfl

@[simp] theorem State.setRa_up (g c : U4) (r : RaRec) :
    (s.setRa g c r).up = s.up := rfl

@[simp] theorem State.setRa_ra (g c : U4) (r : RaRec) :
    (s.setRa g c r).ra = s.ra.set g.toNat ((s.ra[g.toNat]'(g.isLt)).set c.toNat r c.isLt) g.isLt := rfl

@[simp] theorem State.setRa_out (g c : U4) (r : RaRec) :
    (s.setRa g c r).out = s.out := rfl

@[simp] theorem State.setRa_sysexMax (g c : U4) (r : RaRec) :
    (s.setRa g c r).sysexMax = s.sysexMax := rfl

@[simp] theorem State.setRa_inp (g c : U4) (r : RaRec) :
    (s.setRa g c r).inp = s.inp := rfl

/-! ### present -/

@[simp] theorem State.present_cfg (t : Txn) :
    (s.present t).cfg = s.cfg := rfl

@[simp] theorem State.present_mp (t : Txn) :
    (s.present t).mp = s.mp := rfl

@[simp] theorem State.present_wf (t : Txn) :
    (s.present t).wf = s.wf := rfl

@[simp] theorem State.present_up (t : Txn) :
    (s.present t).up = s.up := rfl

@[simp] theorem State.present_ra (t : Txn) :
    (s.present t).ra = s.ra := rfl

@[simp] theorem State.present_out (t : Txn) :
    (s.present t).out = s.out := rfl

@[simp] theorem State.present_sysexMax (t : Txn) :
    (s.present t).sysexMax = s.sysexMax := rfl

@[simp] theorem State.present_inp (t : Txn) :
    (s.present t).inp = t :: s.inp := rfl

/-! ### Buffers and records by index -/

@[simp] theorem State.emit_sx7At (e : Event) (h : U4) :
    (s.emit e).sx7At h = s.sx7At h := rfl

@[simp] theorem State.emit_sx8At (e : Event) (h : U4) :
    (s.emit e).sx8At h = s.sx8At h := rfl

@[simp] theorem State.emit_raAt (e : Event) (h d : U4) :
    (s.emit e).raAt h d = s.raAt h d := rfl

@[simp] theorem State.diag_sx7At (c : DiagCode) (info : Word) (h : U4) :
    (s.diag c info).sx7At h = s.sx7At h := rfl

@[simp] theorem State.diag_sx8At (c : DiagCode) (info : Word) (h : U4) :
    (s.diag c info).sx8At h = s.sx8At h := rfl

@[simp] theorem State.diag_raAt (c : DiagCode) (info : Word) (h d : U4) :
    (s.diag c info).raAt h d = s.raAt h d := rfl

@[simp] theorem State.overflowDiag_sx7At (h : U4) :
    (s.overflowDiag).sx7At h = s.sx7At h := rfl

@[simp] theorem State.overflowDiag_sx8At (h : U4) :
    (s.overflowDiag).sx8At h = s.sx8At h := rfl

@[simp] theorem State.overflowDiag_raAt (h d : U4) :
    (s.overflowDiag).raAt h d = s.raAt h d := rfl

@[simp] theorem State.setSx7_raAt (g : U4) (b : Option (List U7)) (h d : U4) :
    (s.setSx7 g b).raAt h d = s.raAt h d := rfl

@[simp] theorem State.setSx8_raAt (g : U4) (b : Option Sx8) (h d : U4) :
    (s.setSx8 g b).raAt h d = s.raAt h d := rfl

@[simp] theorem State.setRa_sx7At (g c : U4) (r : RaRec) (h : U4) :
    (s.setRa g c r).sx7At h = s.sx7At h := rfl

@[simp] theorem State.setRa_sx8At (g c : U4) (r : RaRec) (h : U4) :
    (s.setRa g c r).sx8At h = s.sx8At h := rfl

@[simp] theorem State.present_sx7At (t : Txn) (h : U4) :
    (s.present t).sx7At h = s.sx7At h := rfl

@[simp] theorem State.present_sx8At (t : Txn) (h : U4) :
    (s.present t).sx8At h = s.sx8At h := rfl

@[simp] theorem State.present_raAt (t : Txn) (h d : U4) :
    (s.present t).raAt h d = s.raAt h d := rfl

@[simp] theorem State.setSx7_sx8At (g : U4) (b : Option (List U7)) (h : U4) :
    (s.setSx7 g b).sx8At h = s.sx8At h := rfl

@[simp] theorem State.setSx8_sx7At (g : U4) (b : Option Sx8) (h : U4) :
    (s.setSx8 g b).sx7At h = s.sx7At h := rfl

/-- A buffer written is read back, and every other group's buffer is left alone (R286). -/
theorem State.setSx7_sx7At (g : U4) (b : Option (List U7)) (h : U4) :
    (s.setSx7 g b).sx7At h = if h = g then b else s.sx7At h := by
  simp only [State.sx7At, State.setSx7, Vector.getElem_set]
  by_cases e : h = g
  · simp [e]
  · have : ¬ g.toNat = h.toNat := fun q => e (BitVec.eq_of_toNat_eq q.symm)
    simp [e, this]

/-- The same for SysEx8 buffers (R286). -/
theorem State.setSx8_sx8At (g : U4) (b : Option Sx8) (h : U4) :
    (s.setSx8 g b).sx8At h = if h = g then b else s.sx8At h := by
  simp only [State.sx8At, State.setSx8, Vector.getElem_set]
  by_cases e : h = g
  · simp [e]
  · have : ¬ g.toNat = h.toNat := fun q => e (BitVec.eq_of_toNat_eq q.symm)
    simp [e, this]

/-- A record written is read back, and every other record is left alone (R324). -/
theorem State.setRa_raAt (g c : U4) (r : RaRec) (h d : U4) :
    (s.setRa g c r).raAt h d = if h = g ∧ d = c then r else s.raAt h d := by
  simp only [State.raAt, State.setRa, Vector.getElem_set]
  by_cases e : h = g
  · subst e
    by_cases f : d = c
    · simp [f]
    · have : ¬ c.toNat = d.toNat := fun q => f (BitVec.eq_of_toNat_eq q.symm)
      simp [f, this]
  · have : ¬ g.toNat = h.toNat := fun q => e (BitVec.eq_of_toNat_eq q.symm)
    simp [e, this]

@[simp] theorem State.setRa_raAt_same (g c : U4) (r : RaRec) : (s.setRa g c r).raAt g c = r := by
  simp [State.setRa_raAt]

/-- Every buffer and record is at its reset value after a reset (R45). -/
@[simp] theorem Up.reset_sx7 (g : U4) : Up.reset.sx7[g.toNat]'(g.isLt) = none := by
  simp [Up.reset]

@[simp] theorem Up.reset_sx8 (g : U4) : Up.reset.sx8[g.toNat]'(g.isLt) = none := by
  simp [Up.reset]

@[simp] theorem raReset_at (g c : U4) :
    (raReset[g.toNat]'(g.isLt))[c.toNat]'(c.isLt) = RaRec.empty := by
  simp [raReset]

end Sys2Proof.Machine
end

