-- ==== Sys2Proof/Laws/Ops.lean ====
section
/-! SUPPORT. One lemma per shared operation that says once everything it can do, for later proofs to cite instead of
unfolding it. -/

namespace Sys2Proof.Machine

variable (s : State)

/-! ### Appending to OUT -/

theorem State.emit_eq (e : Event) : s.emit e = appended s [.ev e] := rfl
theorem State.diag_eq (c : DiagCode) (info : Word) : s.diag c info = appended s [.dg c info] := rfl
theorem State.overflowDiag_eq :
    s.overflowDiag = appended s [.dg .sysexOverflow (maxInfo s.sysexMax)] := rfl
@[simp] theorem appended_nil : appended s [] = s := by simp [appended]

/-! The fields of a state with items appended. -/

@[simp] theorem appended_cfg (items : List Item) : (appended s items).cfg = s.cfg := rfl
@[simp] theorem appended_mp (items : List Item) : (appended s items).mp = s.mp := rfl
@[simp] theorem appended_wf (items : List Item) : (appended s items).wf = s.wf := rfl
@[simp] theorem appended_up (items : List Item) : (appended s items).up = s.up := rfl
@[simp] theorem appended_ra (items : List Item) : (appended s items).ra = s.ra := rfl
@[simp] theorem appended_sysexMax (items : List Item) : (appended s items).sysexMax = s.sysexMax := rfl
@[simp] theorem appended_inp (items : List Item) : (appended s items).inp = s.inp := rfl
@[simp] theorem appended_out (items : List Item) : (appended s items).out = s.out ++ items := rfl
@[simp] theorem appended_sx7At (items : List Item) (g : U4) : (appended s items).sx7At g = s.sx7At g := rfl
@[simp] theorem appended_sx8At (items : List Item) (g : U4) : (appended s items).sx8At g = s.sx8At g := rfl
@[simp] theorem appended_raAt (items : List Item) (g c : U4) : (appended s items).raAt g c = s.raAt g c := rfl

/-- Writing a record with what it holds changes nothing. -/
@[simp] theorem State.setRa_self (g ch : U4) : s.setRa g ch (s.raAt g ch) = s := by
  simp [State.setRa, State.raAt]

/-! ### The RA: one record and at most one item change (R310, R324) -/

/-- `t` is `s` with at most one RA record, and at most one item appended. -/
def OneItem (s t : State) : Prop :=
  ∃ g ch r items, items.length ≤ 1 ∧ t = appended (s.setRa g ch r) items

theorem OneItem.appended {items : List Item} (h : items.length ≤ 1) : OneItem s (appended s items) :=
  ⟨0, 0, s.raAt 0 0, items, h, by simp⟩

/-- A control change of (g, ch) writes RA[g][ch] and appends at most one item (R310, R313 to R323). -/
theorem State.controlChange_spec (g ch : U4) (ctrl v : U7) :
    ∃ r items, items.length ≤ 1 ∧ s.controlChange g ch ctrl v = appended (s.setRa g ch r) items := by
  have keep : ∀ items : List Item, items.length ≤ 1 →
      ∃ r its, its.length ≤ 1 ∧ Machine.appended s items = Machine.appended (s.setRa g ch r) its :=
    fun items h => ⟨s.raAt g ch, items, h, by simp⟩
  have emitted : ∀ (t : State) op val, ∃ items : List Item, items.length ≤ 1 ∧
      t.raEmit g ch op val = Machine.appended t items := by
    intro t op val
    unfold State.raEmit
    split
    · exact ⟨[_], by simp, rfl⟩
    · exact ⟨[], by simp, by simp⟩
  unfold State.controlChange
  split
  · exact ⟨(s.raAt g ch).storeNumber .rpn .msb v, [], by simp, (appended_nil _).symm⟩
  · exact ⟨(s.raAt g ch).storeNumber .rpn .lsb v, [], by simp, (appended_nil _).symm⟩
  · exact ⟨(s.raAt g ch).storeNumber .nrpn .msb v, [], by simp, (appended_nil _).symm⟩
  · exact ⟨(s.raAt g ch).storeNumber .nrpn .lsb v, [], by simp, (appended_nil _).symm⟩
  · unfold State.raDataMsb
    split
    · simpa using keep [] (by simp)
    · simp only
      split
      · obtain ⟨items, hl, he⟩ := emitted
          (s.setRa g ch { s.raAt g ch with dMSB := some v, dLSB := none }) .abs (.v7 v 0#7)
        exact ⟨_, items, hl, he⟩
      · exact ⟨_, [], by simp, (appended_nil _).symm⟩
  · unfold State.raDataLsb
    split
    · obtain ⟨items, hl, he⟩ := emitted (s.setRa g ch { s.raAt g ch with dLSB := some v }) .abs (.v7 _ v)
      exact ⟨_, items, hl, he⟩
    · simpa using keep [] (by simp)
  · obtain ⟨items, hl, he⟩ := emitted s .inc (.v7 0#7 v)
    rw [he]; exact keep items hl
  · obtain ⟨items, hl, he⟩ := emitted s .dec (.v7 0#7 v)
    rw [he]; exact keep items hl
  · unfold State.raResetControllers
    simp only
    split
    · exact ⟨_, [_], by simp, rfl⟩
    · exact keep [_] (by simp)
  · exact keep [_] (by simp)

/-- An event that is no MIDI-1 control change goes straight to OUT (R310). -/
theorem State.deliver_emit {e : Event} (h : ∀ g ch ctrl v, e ≠ .controlChange1 g ch ctrl v) :
    s.deliver e = appended s [.ev e] := by
  unfold State.deliver
  split
  · exact absurd rfl (h _ _ _ _)
  · rfl

/-- Delivering any event changes at most one RA record and appends at most one item (R310). -/
theorem State.deliver_spec (e : Event) : OneItem s (s.deliver e) := by
  by_cases h : ∃ g ch ctrl v, e = .controlChange1 g ch ctrl v
  · obtain ⟨g, ch, ctrl, v, rfl⟩ := h
    obtain ⟨r, items, hl, he⟩ := s.controlChange_spec g ch ctrl v
    exact ⟨g, ch, r, items, hl, he⟩
  · rw [s.deliver_emit (fun g ch c v hc => h ⟨g, ch, c, v, hc⟩)]
    exact OneItem.appended s (by simp)

/-- A range-checked delivery is a RANGE diagnostic or the delivery (R220). -/
theorem State.deliverChecked_spec (w0 : Word) (bad : Bool) (e : Event) :
    OneItem s (s.deliverChecked w0 bad e) := by
  unfold State.deliverChecked
  split
  · exact OneItem.appended s (items := [.dg .range w0]) (by simp)
  · exact s.deliver_spec e

/-- `complete` delivers at most one event (R146). -/
theorem State.complete_spec (st : Byte) (d1 d2 : U7) : OneItem s (s.complete st d1 d2) := by
  unfold State.complete
  split
  · exact s.deliver_spec _
  · have := OneItem.appended s (items := []) (by simp)
    simpa using this

/-- The row of a controller runs the rule R121 gives it (R310). -/
theorem exec_decodeCc (g ch : U4) (ctrl v : U7) :
    exec (decodeCc g ch ctrl v) s = .next (s.controlChange g ch ctrl v) := by
  simp only [decodeCc, State.controlChange]
  split <;> simp_all [exec, execRaCc101, execRaCc100, execRaCc99, execRaCc98, execRaCc6, execRaCc38, execRaCc96,
    execRaCc97, execRaCc121, execRaPass]

/-- Only a status 0xBn builds a MIDI-1 control change (R151). -/
theorem messageEvent_no_cc {cfg : Word} {st : Byte} {d1 d2 : U7} {e : Event} (h : messageEvent cfg st d1 d2 = some e)
    (hb : st.extractLsb' 4 4 ≠ 0xB#4) (g ch : U4) (ctrl v : U7) : e ≠ .controlChange1 g ch ctrl v := by
  rintro rfl
  apply hb
  have : st.toNat / 16 = 11 := by
    unfold messageEvent at h
    split at h <;> simp_all [noteOnEvent, systemEvent] <;> (try (split at h <;> simp_all))
  apply BitVec.eq_of_toNat_eq
  rw [toNat_field]
  simp [this]

/-- A complete message that is no control change puts its event on OUT (R146). -/
theorem State.complete_event {st : Byte} {d1 d2 : U7} {e : Event} (h : messageEvent s.cfg st d1 d2 = some e)
    (hb : st.extractLsb' 4 4 ≠ 0xB#4) : s.complete st d1 d2 = appended s [.ev e] := by
  simp only [State.complete, h]
  exact s.deliver_emit (messageEvent_no_cc h hb)

/-- A complete control change runs the rule of its controller (R151, R310). -/
theorem State.complete_cc (ch : U4) (d1 d2 : U7) :
    s.complete (0xB#4 ++ ch) d1 d2 = s.controlChange (s.cfg.extractLsb' 8 4) ch d1 d2 := by
  have h : ((0xB#4 ++ ch : Byte)).toNat / 16 = 11 := by rw [channel_toNat]; simp; omega
  simp [State.complete, messageEvent, h, m1Group, statusChannel, State.deliver]

/-! ### Delivery and MP (R146, R310) -/

@[simp] theorem State.raAt_set_mp (s : State) (g ch : U4) (p : Mp) : ({ s with mp := p } : State).raAt g ch = s.raAt g ch := rfl
@[simp] theorem State.setRa_set_mp (s : State) (g ch : U4) (r : RaRec) (p : Mp) :
    ({ s with mp := p } : State).setRa g ch r = { s.setRa g ch r with mp := p } := rfl
@[simp] theorem State.raEmit_set_mp (s : State) (g ch : U4) (op : ParamOp) (val : ParamValue) (p : Mp) :
    ({ s with mp := p } : State).raEmit g ch op val = { s.raEmit g ch op val with mp := p } := by
  cases h : (s.raAt g ch).number <;> simp [State.raEmit, State.emit, h]

/-- Data entry MSB neither reads nor writes MP (R318). -/
theorem State.raDataMsb_set_mp (s : State) (g ch : U4) (v : U7) (p : Mp) :
    ({ s with mp := p } : State).raDataMsb g ch v = { s.raDataMsb g ch v with mp := p } := by
  obtain ⟨cfg, q, wf, up, ra, out, m, inp⟩ := s
  cases h : (State.raAt ⟨cfg, q, wf, up, ra, out, m, inp⟩ g ch).number <;> cases hE : deEmitOnMsb cfg <;>
    simp only [State.raAt] at h <;>
    simp only [State.raDataMsb, State.raAt, h, State.setRa, hE, if_true, Bool.false_eq_true, if_false]
  exact State.raEmit_set_mp ⟨cfg, q, wf, up, _, out, m, inp⟩ _ _ _ _ _

/-- A control change neither reads nor writes MP (R310). -/
theorem State.controlChange_set_mp (s : State) (g ch : U4) (ctrl v : U7) (p : Mp) :
    ({ s with mp := p } : State).controlChange g ch ctrl v = { s.controlChange g ch ctrl v with mp := p } := by
  unfold State.controlChange
  split
  case h_5 => exact s.raDataMsb_set_mp g ch v p
  case h_6 =>
    cases h : (s.raAt g ch).number <;> cases h' : (s.raAt g ch).dMSB <;>
      simp only [State.raDataLsb, State.raAt_set_mp, h, h', State.setRa_set_mp, State.raEmit_set_mp]
  case h_9 => simp only [State.raResetControllers]; split <;> rfl
  all_goals first | rfl | exact s.raEmit_set_mp _ _ _ _ _

/-- Completing a message neither reads nor writes MP (R146). -/
theorem State.complete_set_mp (s : State) (st : Byte) (d1 d2 : U7) (p : Mp) :
    ({ s with mp := p } : State).complete st d1 d2 = { s.complete st d1 d2 with mp := p } := by
  unfold State.complete
  show (match messageEvent s.cfg st d1 d2 with | some e => _ | none => _) = _
  split
  · rename_i e h
    simp only [h]
    unfold State.deliver
    split
    · exact s.controlChange_set_mp _ _ _ _ _
    · rfl
  · rename_i h; simp only [h]

/-- A status with data bytes has an event (R86, R87). -/
theorem messageEvent_isSome (cfg : Word) {st : Byte} (d1 d2 : U7) (h : need st ≠ 0) :
    ∃ e, messageEvent cfg st d1 d2 = some e := by
  unfold messageEvent
  unfold need at h
  split at h
  case h_8 hF =>
    simp only [hF]
    split at h <;> simp_all [systemEvent]
  all_goals simp_all

/-- Completing a message of a status with data bytes answers what `MessageDone` says (R146). -/
theorem State.complete_done (s : State) {st : Byte} (d1 d2 : U7) (h : need st ≠ 0) :
    MessageDone s st d1 d2 (.next (s.complete st d1 d2)) := by
  obtain ⟨e, he⟩ := messageEvent_isSome s.cfg d1 d2 h
  refine ⟨fun hb => ⟨e, he, by rw [s.complete_event he hb]⟩, fun hb => ?_⟩
  have hs : (0xB#4 ++ st.extractLsb' 0 4 : Byte) = st := by rw [← hb]; exact channel_fields st
  rw [exec_decodeCc, ← s.complete_cc, hs]

/-! ### The MIDI-1 parser -/

/-- `preempt`, field by field (R147). -/
theorem State.preempt_eq (b : Byte) : s.preempt b = afterPreempt s b := by
  obtain ⟨cfg, ⟨mode, rs, cur, k, d0, sx⟩, wf, up, ra, out, m, inp⟩ := s
  simp only [State.preempt]
  split <;> rename_i h3 <;> cases mode <;>
    by_cases h1 : b = 0xF7#8 <;> by_cases h2 : cfg.getLsbD 3 = true <;>
    simp_all [State.endInProgress, afterPreempt, preemptItems, preemptMode, State.diag, State.deliver,
      State.emit, State.group, sysexIntEmit, scClearsRs, m1Group]

/-- A data byte runs the row its state selects (R140). -/
theorem State.dataRow_selected : Selected s s.dataRow := by
  cases hm : s.mp.mode <;> simp only [State.dataRow, hm] <;> try exact hm
  cases hr : s.mp.rs
  · exact ⟨hm, hr⟩
  · exact ⟨hm, by simp [hr]⟩

/-- At most one row is selected. -/
theorem Selected.unique {a b : DataRow} (ha : Selected s a) (hb : Selected s b) : a = b := by
  cases a <;> cases b <;> simp_all [Selected]

/-! ### Buffers -/

/-- `exceedsMax` is the negation of `within` (R61). -/
theorem exceedsMax_iff (m : SysexMax) (len : Nat) : exceedsMax m len = true ↔ ¬ within m len := by
  cases m <;> simp [exceedsMax, within]

/-- A payload within SYSEX_MAX is accepted (R61). -/
theorem exceedsMax_of_within {m : SysexMax} {len : Nat} (h : within m len) : exceedsMax m len = false := by
  rw [Bool.eq_false_iff, ne_eq, exceedsMax_iff]
  simp [h]

/-- A longer payload is not. -/
theorem exceedsMax_of_lt {n len : Nat} (h : n < len) : exceedsMax (.bytes n) len = true := by simp [exceedsMax, h]

/-- The diagnostic of an overflow carries SYSEX_MAX (R362). -/
theorem State.overflowDiag_bytes {n : Nat} (h : s.sysexMax = .bytes n) :
    s.overflowDiag = appended s [.dg .sysexOverflow (BitVec.ofNat 32 n)] := by
  rw [State.overflowDiag_eq, h]
  rfl

/-- Writing a SysEx7 buffer (R286). -/
theorem State.setSx7_update (g : U4) (b : Option (List U7)) : Sx7Update s g b (s.setSx7 g b) := by
  refine ⟨by simp [State.setSx7_sx7At], fun h hne => ?_, rfl, rfl⟩
  simp [State.setSx7_sx7At, hne]

/-- Writing a SysEx8 buffer (R286). -/
theorem State.setSx8_update (g : U4) (b : Option Sx8) : Sx8Update s g b (s.setSx8 g b) := by
  refine ⟨by simp [State.setSx8_sx8At], fun h hne => ?_, rfl, rfl⟩
  simp [State.setSx8_sx8At, hne]

/-- Writing an RA record (R324). -/
theorem State.setRa_update (g ch : U4) (r : RaRec) : RaUpdate s g ch r (s.setRa g ch r) := by
  refine ⟨by simp, fun h d hne => ?_, rfl⟩
  simp [State.setRa_raAt, hne]

@[simp] theorem State.setSx7_setSx7 (g : U4) (a b : Option (List U7)) :
    (s.setSx7 g a).setSx7 g b = s.setSx7 g b := by simp [State.setSx7]
@[simp] theorem State.setSx8_setSx8 (g : U4) (a b : Option Sx8) :
    (s.setSx8 g a).setSx8 g b = s.setSx8 g b := by simp [State.setSx8]
@[simp] theorem State.setRa_setRa (g ch : U4) (a b : RaRec) :
    (s.setRa g ch a).setRa g ch b = s.setRa g ch b := by simp [State.setRa]

/-! ### Payloads -/

/-- A SysEx7 packet that passes R270's checks has its payload. -/
theorem sx7Payload_of {n : U4} {b1 b2 : Byte} {w1 : Word} {p : List U7} (h : Sysex7Payload n b1 b2 w1 p) :
    sx7Payload n b1 b2 w1 = some p := by
  obtain ⟨h1, h2⟩ := h
  have hb : sx7Bytes n b1 b2 w1 = p.map (fun v => (0#1 ++ v : Byte)) := h2.symm
  have e1 : ∀ v : U7, bit7 (0#1 ++ v : Byte) = false := bit7_dataByteOf
  have e2 : ∀ v : U7, low7 (0#1 ++ v : Byte) = v := low_dataByteOf
  rw [sx7Payload, hb, if_neg (by omega), if_neg]
  · simp [Function.comp_def, e2]
  · simp [e1]

/-- A SysEx7 packet that fails one has none. -/
theorem sx7Payload_none {n : U4} {b1 b2 : Byte} {w1 : Word}
    (h : 6 < n.toNat ∨ ∃ b ∈ sx7Bytes n b1 b2 w1, b.getLsbD 7 = true) : sx7Payload n b1 b2 w1 = none := by
  unfold sx7Payload
  split
  · rfl
  · obtain h | ⟨b, hb, h⟩ := h
    · contradiction
    · exact if_pos (List.any_eq_true.2 ⟨b, hb, h⟩)

/-- A SysEx8 packet that passes R280's check has its payload. -/
theorem sx8Payload_of {n : U4} {b2 : Byte} {w1 w2 w3 : Word} {p : List Byte} (h : Sysex8Payload n b2 w1 w2 w3 p) :
    sx8Payload n b2 w1 w2 w3 = some p := by
  obtain ⟨h1, h2, rfl⟩ := h
  rw [sx8Payload, if_neg (by omega)]
  rfl

end Sys2Proof.Machine
end

