-- ==== Sys2Proof/Laws/PerInstr.lean ====
section
/-! SUPPORT. The per-instruction family CodeShape: the code of an instruction has the shape of its format
(30_encoding.md R80, R82, R95, R128). -/

namespace Sys2Proof.Laws.CodeShape

/-- The code of an instruction: a packet has as many words as its message type, a byte has bit 7 clear
exactly for the data-byte rows, and a transaction gives a length only with tag 2. -/
def Statement (i : Instr) : Prop :=
  match encode i with
  | .ump w0 rest => rest.length + 1 = wc (mtOf w0)
  | .byte8 b => (b.getLsbD 7 = false ↔ i.dataRow ≠ none)
  | .txn t => t.tag = 2 ∨ t.len = 0
  | .cc7 _ _ _ _ => i.dataRow = none

/-- A packet whose message type is mt. -/
theorem of_type {w0 : Word} {rest : List Word} {mt : U4} (h : mtOf w0 = mt) (hl : rest.length + 1 = wc mt) :
    rest.length + 1 = wc (mtOf w0) := by rw [h, hl]

/-- A status byte is no data byte. -/
theorem of_status {b : Byte} {r : Option DataRow} (h : b.getLsbD 7 = true) (hr : r = none) :
    b.getLsbD 7 = false ↔ r ≠ none := by simp [h, hr]

theorem byte (b : Byte) : Statement (.byte b) := Or.inr rfl

theorem word (w : Word) : Statement (.word w) := Or.inr rfl

theorem packet (w0 : Word) (rest : List Word) : Statement (.packet w0 rest) := Or.inl rfl

theorem reset : Statement .reset := Or.inr rfl

theorem config (v : Word) : Statement (.config v) := Or.inr rfl

theorem tagRsvd5 : Statement .tagRsvd5 := Or.inr rfl

theorem tagRsvd6 : Statement .tagRsvd6 := Or.inr rfl

theorem tagRsvd7 : Statement .tagRsvd7 := Or.inr rfl

theorem dataRs (v : U7) : Statement (.dataRs v) := iff_of_true (bit7_dataByteOf v) nofun

theorem dataOrphan (v : U7) : Statement (.dataOrphan v) := iff_of_true (bit7_dataByteOf v) nofun

theorem dataData (v : U7) : Statement (.dataData v) := iff_of_true (bit7_dataByteOf v) nofun

theorem dataSysex (v : U7) : Statement (.dataSysex v) := iff_of_true (bit7_dataByteOf v) nofun

theorem dataSxdiscard (v : U7) : Statement (.dataSxdiscard v) := iff_of_true (bit7_dataByteOf v) nofun

theorem noteoff (ch : U4) : Statement (.noteoff ch) := of_status (channel_bit7 _ _) rfl

theorem noteon (ch : U4) : Statement (.noteon ch) := of_status (channel_bit7 _ _) rfl

theorem polypress (ch : U4) : Statement (.polypress ch) := of_status (channel_bit7 _ _) rfl

theorem cc (ch : U4) : Statement (.cc ch) := of_status (channel_bit7 _ _) rfl

theorem progchg (ch : U4) : Statement (.progchg ch) := of_status (channel_bit7 _ _) rfl

theorem chanpress (ch : U4) : Statement (.chanpress ch) := of_status (channel_bit7 _ _) rfl

theorem pitchbend (ch : U4) : Statement (.pitchbend ch) := of_status (channel_bit7 _ _) rfl

theorem sysexStart : Statement .sysexStart := of_status rfl rfl

theorem mtcQf : Statement .mtcQf := of_status rfl rfl

theorem songpos : Statement .songpos := of_status rfl rfl

theorem songsel : Statement .songsel := of_status rfl rfl

theorem undefF4 : Statement .undefF4 := of_status rfl rfl

theorem busselF5 : Statement .busselF5 := of_status rfl rfl

theorem tunereq : Statement .tunereq := of_status rfl rfl

theorem eox : Statement .eox := of_status rfl rfl

theorem clock : Statement .clock := of_status rfl rfl

theorem undefF9 : Statement .undefF9 := of_status rfl rfl

theorem rtStart : Statement .rtStart := of_status rfl rfl

theorem rtContinue : Statement .rtContinue := of_status rfl rfl

theorem rtStop : Statement .rtStop := of_status rfl rfl

theorem undefFd : Statement .undefFd := of_status rfl rfl

theorem actsense : Statement .actsense := of_status rfl rfl

theorem sysreset : Statement .sysreset := of_status rfl rfl

theorem u0Noop (g x : U4) (time : U16) : Statement (.u0Noop g x time) := of_type (mtOf_umpWord0 _ _ _ _) rfl

theorem u0Jrclock (g x : U4) (time : U16) : Statement (.u0Jrclock g x time) := of_type (mtOf_umpWord0 _ _ _ _) rfl

theorem u0Jrts (g x : U4) (time : U16) : Statement (.u0Jrts g x time) := of_type (mtOf_umpWord0 _ _ _ _) rfl

theorem u0Other (g st x : U4) (time : U16) : Statement (.u0Other g st x time) := of_type (mtOf_umpWord0 _ _ _ _) rfl

theorem u1MtcQf (g : U4) (b1 b2 : Byte) : Statement (.u1MtcQf g b1 b2) := of_type (mtOf_umpWord1 _ _ _ _) rfl

theorem u1Songpos (g : U4) (b1 b2 : Byte) : Statement (.u1Songpos g b1 b2) := of_type (mtOf_umpWord1 _ _ _ _) rfl

theorem u1Songsel (g : U4) (b1 b2 : Byte) : Statement (.u1Songsel g b1 b2) := of_type (mtOf_umpWord1 _ _ _ _) rfl

theorem u1Bussel (g : U4) (b1 b2 : Byte) : Statement (.u1Bussel g b1 b2) := of_type (mtOf_umpWord1 _ _ _ _) rfl

theorem u1Tunereq (g : U4) (b1 b2 : Byte) : Statement (.u1Tunereq g b1 b2) := of_type (mtOf_umpWord1 _ _ _ _) rfl

theorem u1Clock (g : U4) (b1 b2 : Byte) : Statement (.u1Clock g b1 b2) := of_type (mtOf_umpWord1 _ _ _ _) rfl

theorem u1Start (g : U4) (b1 b2 : Byte) : Statement (.u1Start g b1 b2) := of_type (mtOf_umpWord1 _ _ _ _) rfl

theorem u1Continue (g : U4) (b1 b2 : Byte) : Statement (.u1Continue g b1 b2) := of_type (mtOf_umpWord1 _ _ _ _) rfl

theorem u1Stop (g : U4) (b1 b2 : Byte) : Statement (.u1Stop g b1 b2) := of_type (mtOf_umpWord1 _ _ _ _) rfl

theorem u1Actsense (g : U4) (b1 b2 : Byte) : Statement (.u1Actsense g b1 b2) := of_type (mtOf_umpWord1 _ _ _ _) rfl

theorem u1Sysreset (g : U4) (b1 b2 : Byte) : Statement (.u1Sysreset g b1 b2) := of_type (mtOf_umpWord1 _ _ _ _) rfl

theorem u1Other (g : U4) (status : Byte) (b1 b2 : Byte) : Statement (.u1Other g status b1 b2) := of_type (mtOf_umpWord1 _ _ _ _) rfl

theorem u2Noteoff (g ch : U4) (b1 b2 : Byte) : Statement (.u2Noteoff g ch b1 b2) := of_type (mtOf_umpWord _ _ _ _ _ _) rfl

theorem u2Noteon (g ch : U4) (b1 b2 : Byte) : Statement (.u2Noteon g ch b1 b2) := of_type (mtOf_umpWord _ _ _ _ _ _) rfl

theorem u2Polypress (g ch : U4) (b1 b2 : Byte) : Statement (.u2Polypress g ch b1 b2) := of_type (mtOf_umpWord _ _ _ _ _ _) rfl

theorem u2Cc (g ch : U4) (b1 b2 : Byte) : Statement (.u2Cc g ch b1 b2) := of_type (mtOf_umpWord _ _ _ _ _ _) rfl

theorem u2Progchg (g ch : U4) (b1 b2 : Byte) : Statement (.u2Progchg g ch b1 b2) := of_type (mtOf_umpWord _ _ _ _ _ _) rfl

theorem u2Chanpress (g ch : U4) (b1 b2 : Byte) : Statement (.u2Chanpress g ch b1 b2) := of_type (mtOf_umpWord _ _ _ _ _ _) rfl

theorem u2Pitchbend (g ch : U4) (b1 b2 : Byte) : Statement (.u2Pitchbend g ch b1 b2) := of_type (mtOf_umpWord _ _ _ _ _ _) rfl

theorem u2Other07 (g : U4) (op : BitVec 3) (ch : U4) (b1 b2 : Byte) : Statement (.u2Other07 g op ch b1 b2) := of_type (mtOf_umpWord _ _ _ _ _ _) rfl

theorem u2OtherF (g ch : U4) (b1 b2 : Byte) : Statement (.u2OtherF g ch b1 b2) := of_type (mtOf_umpWord _ _ _ _ _ _) rfl

theorem u3Complete (g n : U4) (b1 b2 : Byte) (w1 : Word) : Statement (.u3Complete g n b1 b2 w1) := of_type (mtOf_umpWord _ _ _ _ _ _) rfl

theorem u3Start (g n : U4) (b1 b2 : Byte) (w1 : Word) : Statement (.u3Start g n b1 b2 w1) := of_type (mtOf_umpWord _ _ _ _ _ _) rfl

theorem u3Continue (g n : U4) (b1 b2 : Byte) (w1 : Word) : Statement (.u3Continue g n b1 b2 w1) := of_type (mtOf_umpWord _ _ _ _ _ _) rfl

theorem u3End (g n : U4) (b1 b2 : Byte) (w1 : Word) : Statement (.u3End g n b1 b2 w1) := of_type (mtOf_umpWord _ _ _ _ _ _) rfl

theorem u3Other (g st n : U4) (b1 b2 : Byte) (w1 : Word) : Statement (.u3Other g st n b1 b2 w1) := of_type (mtOf_umpWord _ _ _ _ _ _) rfl

theorem u4Pnrc (g ch : U4) (b1 b2 : Byte) (w1 : Word) : Statement (.u4Pnrc g ch b1 b2 w1) := of_type (mtOf_umpWord _ _ _ _ _ _) rfl

theorem u4Pnac (g ch : U4) (b1 b2 : Byte) (w1 : Word) : Statement (.u4Pnac g ch b1 b2 w1) := of_type (mtOf_umpWord _ _ _ _ _ _) rfl

theorem u4Rc (g ch : U4) (b1 b2 : Byte) (w1 : Word) : Statement (.u4Rc g ch b1 b2 w1) := of_type (mtOf_umpWord _ _ _ _ _ _) rfl

theorem u4Ac (g ch : U4) (b1 b2 : Byte) (w1 : Word) : Statement (.u4Ac g ch b1 b2 w1) := of_type (mtOf_umpWord _ _ _ _ _ _) rfl

theorem u4Rrc (g ch : U4) (b1 b2 : Byte) (w1 : Word) : Statement (.u4Rrc g ch b1 b2 w1) := of_type (mtOf_umpWord _ _ _ _ _ _) rfl

theorem u4Rac (g ch : U4) (b1 b2 : Byte) (w1 : Word) : Statement (.u4Rac g ch b1 b2 w1) := of_type (mtOf_umpWord _ _ _ _ _ _) rfl

theorem u4Pnpb (g ch : U4) (b1 b2 : Byte) (w1 : Word) : Statement (.u4Pnpb g ch b1 b2 w1) := of_type (mtOf_umpWord _ _ _ _ _ _) rfl

theorem u4Op7 (g ch : U4) (b1 b2 : Byte) (w1 : Word) : Statement (.u4Op7 g ch b1 b2 w1) := of_type (mtOf_umpWord _ _ _ _ _ _) rfl

theorem u4Noteoff (g ch : U4) (b1 b2 : Byte) (w1 : Word) : Statement (.u4Noteoff g ch b1 b2 w1) := of_type (mtOf_umpWord _ _ _ _ _ _) rfl

theorem u4Noteon (g ch : U4) (b1 b2 : Byte) (w1 : Word) : Statement (.u4Noteon g ch b1 b2 w1) := of_type (mtOf_umpWord _ _ _ _ _ _) rfl

theorem u4Polypress (g ch : U4) (b1 b2 : Byte) (w1 : Word) : Statement (.u4Polypress g ch b1 b2 w1) := of_type (mtOf_umpWord _ _ _ _ _ _) rfl

theorem u4Cc (g ch : U4) (b1 b2 : Byte) (w1 : Word) : Statement (.u4Cc g ch b1 b2 w1) := of_type (mtOf_umpWord _ _ _ _ _ _) rfl

theorem u4Progchg (g ch : U4) (b1 b2 : Byte) (w1 : Word) : Statement (.u4Progchg g ch b1 b2 w1) := of_type (mtOf_umpWord _ _ _ _ _ _) rfl

theorem u4Chanpress (g ch : U4) (b1 b2 : Byte) (w1 : Word) : Statement (.u4Chanpress g ch b1 b2 w1) := of_type (mtOf_umpWord _ _ _ _ _ _) rfl

theorem u4Pitchbend (g ch : U4) (b1 b2 : Byte) (w1 : Word) : Statement (.u4Pitchbend g ch b1 b2 w1) := of_type (mtOf_umpWord _ _ _ _ _ _) rfl

theorem u4Pnmgmt (g ch : U4) (b1 b2 : Byte) (w1 : Word) : Statement (.u4Pnmgmt g ch b1 b2 w1) := of_type (mtOf_umpWord _ _ _ _ _ _) rfl

theorem u5Complete (g n : U4) (b1 b2 : Byte) (w1 w2 w3 : Word) : Statement (.u5Complete g n b1 b2 w1 w2 w3) := of_type (mtOf_umpWord _ _ _ _ _ _) rfl

theorem u5Start (g n : U4) (b1 b2 : Byte) (w1 w2 w3 : Word) : Statement (.u5Start g n b1 b2 w1 w2 w3) := of_type (mtOf_umpWord _ _ _ _ _ _) rfl

theorem u5Continue (g n : U4) (b1 b2 : Byte) (w1 w2 w3 : Word) : Statement (.u5Continue g n b1 b2 w1 w2 w3) := of_type (mtOf_umpWord _ _ _ _ _ _) rfl

theorem u5End (g n : U4) (b1 b2 : Byte) (w1 w2 w3 : Word) : Statement (.u5End g n b1 b2 w1 w2 w3) := of_type (mtOf_umpWord _ _ _ _ _ _) rfl

theorem u5Other (g st n : U4) (b1 b2 : Byte) (w1 w2 w3 : Word) : Statement (.u5Other g st n b1 b2 w1 w2 w3) := of_type (mtOf_umpWord _ _ _ _ _ _) rfl

theorem u6 (g : U4) (r : BitVec 24) : Statement (.u6 g r) := of_type (mtOf_umpWordR _ _ _) rfl

theorem u7 (g : U4) (r : BitVec 24) : Statement (.u7 g r) := of_type (mtOf_umpWordR _ _ _) rfl

theorem u8 (g : U4) (r : BitVec 24) (w1 : Word) : Statement (.u8 g r w1) := of_type (mtOf_umpWordR _ _ _) rfl

theorem u9 (g : U4) (r : BitVec 24) (w1 : Word) : Statement (.u9 g r w1) := of_type (mtOf_umpWordR _ _ _) rfl

theorem uA (g : U4) (r : BitVec 24) (w1 : Word) : Statement (.uA g r w1) := of_type (mtOf_umpWordR _ _ _) rfl

theorem uB (g : U4) (r : BitVec 24) (w1 w2 : Word) : Statement (.uB g r w1 w2) := of_type (mtOf_umpWordR _ _ _) rfl

theorem uC (g : U4) (r : BitVec 24) (w1 w2 : Word) : Statement (.uC g r w1 w2) := of_type (mtOf_umpWordR _ _ _) rfl

theorem uD (g : U4) (r : BitVec 24) (w1 w2 w3 : Word) : Statement (.uD g r w1 w2 w3) := of_type (mtOf_umpWordR _ _ _) rfl

theorem uE (g : U4) (r : BitVec 24) (w1 w2 w3 : Word) : Statement (.uE g r w1 w2 w3) := of_type (mtOf_umpWordR _ _ _) rfl

theorem uF (g : U4) (r : BitVec 24) (w1 w2 w3 : Word) : Statement (.uF g r w1 w2 w3) := of_type (mtOf_umpWordR _ _ _) rfl

theorem raCc101 (g ch : U4) (v : U7) : Statement (.raCc101 g ch v) := rfl

theorem raCc100 (g ch : U4) (v : U7) : Statement (.raCc100 g ch v) := rfl

theorem raCc99 (g ch : U4) (v : U7) : Statement (.raCc99 g ch v) := rfl

theorem raCc98 (g ch : U4) (v : U7) : Statement (.raCc98 g ch v) := rfl

theorem raCc6 (g ch : U4) (v : U7) : Statement (.raCc6 g ch v) := rfl

theorem raCc38 (g ch : U4) (v : U7) : Statement (.raCc38 g ch v) := rfl

theorem raCc96 (g ch : U4) (v : U7) : Statement (.raCc96 g ch v) := rfl

theorem raCc97 (g ch : U4) (v : U7) : Statement (.raCc97 g ch v) := rfl

theorem raCc121 (g ch : U4) (v : U7) : Statement (.raCc121 g ch v) := rfl

theorem raPass (g ch : U4) (ctrl v : U7) : Statement (.raPass g ch ctrl v) := rfl

end Sys2Proof.Laws.CodeShape
end

