-- ==== Sys2Proof/Laws/Rows.lean ====
section
/-! SUPPORT. The dispatchers of Machine/Midi1.lean and Machine/Transactions.lean run the rows the decoder names, and what
the rows of a packet and of a byte can do, said once. -/

namespace Sys2Proof.Machine

variable (s : State)

/-! ### The dispatchers agree with the decoder -/

/-- The dispatch of MT 0x0 runs the row of the packet. -/
theorem exec_decodeU0 (w0 : Word) : exec (decodeU0 w0) s = runU0 w0 s := by
  simp only [decodeU0, runU0]
  split <;> simp_all only [exec]

/-- The dispatch of MT 0x1 runs the row of the packet. -/
theorem exec_decodeU1 (w0 : Word) : exec (decodeU1 w0) s = runU1 w0 s := by
  simp only [decodeU1, runU1]
  split <;> simp_all only [exec]

/-- The dispatch of MT 0x2 runs the row of the packet. -/
theorem exec_decodeU2 (w0 : Word) : exec (decodeU2 w0) s = runU2 w0 s := by
  simp only [decodeU2, runU2]
  split <;> simp_all only [exec]

/-- The dispatch of MT 0x3 runs the row of the packet. -/
theorem exec_decodeU3 (w0 w1 : Word) : exec (decodeU3 w0 w1) s = runU3 w0 w1 s := by
  simp only [decodeU3, runU3]
  split <;> simp_all only [exec]

/-- The dispatch of MT 0x4 runs the row of the packet. -/
theorem exec_decodeU4 (w0 w1 : Word) : exec (decodeU4 w0 w1) s = runU4 w0 w1 s := by
  simp only [decodeU4, runU4]
  split <;> simp_all only [exec]

/-- The dispatch of MT 0x5 runs the row of the packet. -/
theorem exec_decodeU5 (w0 w1 w2 w3 : Word) : exec (decodeU5 w0 w1 w2 w3) s = runU5 w0 w1 w2 w3 s := by
  simp only [decodeU5, runU5]
  split <;> simp_all only [exec]

/-- The packet dispatch runs the row of the packet (R204). -/
theorem exec_umpRow (w0 w1 w2 w3 : Word) : exec (umpRow w0 w1 w2 w3) s = runPacket w0 w1 w2 w3 s := by
  simp only [umpRow, runPacket]
  split <;> solve
    | simp_all only [exec_decodeU0, exec_decodeU1, exec_decodeU2, exec_decodeU3, exec_decodeU4, exec_decodeU5]
    | simp_all only [exec]

/-- A packet that decodes runs its row (R201, R202). -/
theorem exec_packet_row {w0 : Word} {rest : List Word} {i : Instr} (h : decodeUmp w0 rest = .ok i) :
    packet w0 rest s = exec i s := by
  unfold decodeUmp at h
  split at h
  · rename_i hl
    cases h
    rw [packet, if_neg (by simpa using hl), exec_umpRow]
  · cases h

/-- A data byte's row, in a state that selects it, is what BYTE does (R140). -/
theorem exec_decodeData {sel : DataRow} (h : Selected s sel) (v : U7) :
    exec (decodeData sel v) s = .next (s.dataByte v) := by
  cases sel with
  | rs =>
    obtain ⟨hm, hr⟩ := h
    obtain ⟨st, hst⟩ := Option.ne_none_iff_exists'.1 hr
    simp [decodeData, exec, execDataRs, State.dataByte, hm, hst]
  | orphan => simp [decodeData, exec, execDataOrphan, State.dataByte, h.1, h.2]
  | data => simp [decodeData, exec, execDataData, State.dataByte, show s.mp.mode = .data from h]
  | sysex => simp [decodeData, exec, execDataSysex, State.dataByte, show s.mp.mode = .sysex from h]
  | sxdiscard => simp [decodeData, exec, execDataSxdiscard, State.dataByte, show s.mp.mode = .sxdiscard from h]

/-- A system byte's row is what BYTE does (R140). -/
theorem exec_decodeSystem (n : U4) : exec (decodeSystem n) s = execSystem n s := by
  simp only [decodeSystem, execSystem]
  split <;> simp_all only [exec]

/-- BYTE runs the row its class and the MP state select (R140). -/
theorem execByte_row {sel : DataRow} (h : Selected s sel) (b : Byte) : execByte b s = exec (decodeByte sel b) s := by
  have hb := b.isLt
  have hn : (b.extractLsb' 4 4).toNat = b.toNat / 16 := by rw [toNat_field]; omega
  unfold execByte
  split
  · rename_i h7
    have h7 : b.getLsbD 7 = false := by simpa [isData] using h7
    rw [← dataByteOf_low h7, decodeByte_data, exec_decodeData s h]
    simp [low7]
  · rename_i h7
    have h7 : 8 ≤ b.toNat / 16 := by
      have : b.getLsbD 7 = true := by simpa [isData] using h7
      rw [BitVec.getLsbD, Nat.testBit_eq_decide_div_mod_eq] at this
      simp at this
      omega
    split
    · rename_i hf
      have : (b.extractLsb' 4 4).toNat = 15 := by bv_omega
      rw [← exec_decodeSystem]
      simp only [decodeByte, this]
    · rename_i hf
      have hlt : b.toNat / 16 < 15 := by bv_omega
      simp only [decodeByte, execChannel]
      have h8 : 8 ≤ (b.extractLsb' 4 4).toNat := by omega
      have h15 : (b.extractLsb' 4 4).toNat < 15 := by omega
      clear hn hlt h7 hb
      generalize (b.extractLsb' 4 4).toNat = n at h8 h15 ⊢
      interval_cases n <;> rfl

/-! ### What a row of a packet can do -/

/-- At most one item, one buffer of the packet's own group and kind, and RA only for message type 0x2 (R205, R286, R325). -/
structure UmpStep (s t : State) (g mt : U4) : Prop where
  cfg : t.cfg = s.cfg
  mp : t.mp = s.mp
  wf : t.wf = s.wf
  sysexMax : t.sysexMax = s.sysexMax
  inp : t.inp = s.inp
  out : ∃ items, items.length ≤ 1 ∧ t.out = s.out ++ items
  sx7 : ∀ h, h ≠ g ∨ mt ≠ 0x3#4 → t.sx7At h = s.sx7At h
  sx8 : ∀ h, h ≠ g ∨ mt ≠ 0x5#4 → t.sx8At h = s.sx8At h
  ra : mt ≠ 0x2#4 → t.ra = s.ra

variable {s} {t : State} {g mt : U4}

/-- A row that only appends items. -/
theorem UmpStep.of_items {items : List Item} (h : items.length ≤ 1) : UmpStep s (appended s items) g mt :=
  ⟨rfl, rfl, rfl, rfl, rfl, ⟨items, h, rfl⟩, fun _ _ => rfl, fun _ _ => rfl, fun _ => rfl⟩

/-- A row of MT 0x2. -/
theorem UmpStep.of_oneItem (h : OneItem s t) : UmpStep s t g 0x2#4 := by
  obtain ⟨g', ch, r, items, hl, rfl⟩ := h
  exact ⟨rfl, rfl, rfl, rfl, rfl, ⟨items, hl, rfl⟩, fun _ _ => rfl, fun _ _ => rfl, fun h => absurd rfl h⟩

/-- A row that delivers an event which is no MIDI-1 control change. -/
theorem UmpStep.of_deliver {e : Event} (h : ∀ g ch ctrl v, e ≠ .controlChange1 g ch ctrl v) :
    UmpStep s (s.deliver e) g mt := by
  rw [s.deliver_emit h]
  exact UmpStep.of_items (by simp)

/-- The same behind a range check. -/
theorem UmpStep.of_checked {w0 : Word} {bad : Bool} {e : Event} (h : ∀ g ch ctrl v, e ≠ .controlChange1 g ch ctrl v) :
    UmpStep s (s.deliverChecked w0 bad e) g mt := by
  unfold State.deliverChecked
  split
  · exact UmpStep.of_items (items := [.dg .range w0]) (by simp)
  · exact UmpStep.of_deliver h

/-- A row that appends one diagnostic. -/
theorem UmpStep.of_diag {c : DiagCode} {info : Word} : UmpStep s (s.diag c info) g mt :=
  UmpStep.of_items (items := [.dg c info]) (by simp)

/-- A row of MT 0x3 that writes its group's buffer and appends at most one item. -/
theorem UmpStep.of_sx7 (b : Option (List U7)) {items : List Item} (h : items.length ≤ 1) :
    UmpStep s (appended (s.setSx7 g b) items) g 0x3#4 := by
  refine ⟨rfl, rfl, rfl, rfl, rfl, ⟨items, h, rfl⟩, ?_, fun _ _ => rfl, fun _ => rfl⟩
  intro i hi
  have hi : i ≠ g := by simpa using hi
  simp [State.setSx7_sx7At, hi]

/-- A row of MT 0x5 that writes its group's buffer and appends at most one item. -/
theorem UmpStep.of_sx8 (b : Option Sx8) {items : List Item} (h : items.length ≤ 1) :
    UmpStep s (appended (s.setSx8 g b) items) g 0x5#4 := by
  refine ⟨rfl, rfl, rfl, rfl, rfl, ⟨items, h, rfl⟩, fun _ _ => rfl, ?_, fun _ => rfl⟩
  intro i hi
  have hi : i ≠ g := by simpa using hi
  simp [State.setSx8_sx8At, hi]

/-! Each message type. -/

theorem runU0_spec (w0 : Word) : ∃ t, runU0 w0 s = .next t ∧ UmpStep s t g mt := by
  unfold runU0
  split
  · exact ⟨_, rfl, UmpStep.of_deliver (by simp)⟩
  · exact ⟨_, rfl, UmpStep.of_deliver (by simp)⟩
  · exact ⟨_, rfl, UmpStep.of_deliver (by simp)⟩
  · exact ⟨_, rfl, UmpStep.of_diag⟩

theorem runU1_spec (w0 : Word) : ∃ t, runU1 w0 s = .next t ∧ UmpStep s t g mt := by
  unfold runU1
  split
  all_goals first
    | exact ⟨_, rfl, UmpStep.of_deliver (by simp)⟩
    | exact ⟨_, rfl, UmpStep.of_checked (by simp)⟩
    | exact ⟨_, rfl, UmpStep.of_diag⟩
    | skip
  refine ⟨_, rfl, ?_⟩
  split
  · exact UmpStep.of_checked (by simp)
  · exact UmpStep.of_diag

theorem runU2_spec (w0 : Word) : ∃ t, runU2 w0 s = .next t ∧ UmpStep s t g 0x2#4 := by
  unfold runU2
  split
  all_goals first
    | exact ⟨_, rfl, UmpStep.of_diag⟩
    | exact ⟨_, rfl, UmpStep.of_oneItem (State.deliverChecked_spec _ _ _ _)⟩

theorem runU4_spec (w0 w1 : Word) : ∃ t, runU4 w0 w1 s = .next t ∧ UmpStep s t g mt := by
  unfold runU4
  split
  all_goals first
    | exact ⟨_, rfl, UmpStep.of_diag⟩
    | exact ⟨_, rfl, UmpStep.of_deliver (by simp)⟩
    | exact ⟨_, rfl, UmpStep.of_checked (by simp [relativeEvent, programEvent]; try (split <;> simp))⟩

theorem runU3_spec (w0 w1 : Word) : ∃ t, runU3 w0 w1 s = .next t ∧ UmpStep s t (grpOf w0) 0x3#4 := by
  have set (b) : UmpStep s (s.setSx7 (grpOf w0) b) (grpOf w0) 0x3#4 := by
    simpa using UmpStep.of_sx7 (s := s) (g := grpOf w0) b (items := []) (by simp)
  have setd (b c info) : UmpStep s ((s.setSx7 (grpOf w0) b).diag c info) (grpOf w0) 0x3#4 :=
    UmpStep.of_sx7 b (items := [.dg c info]) (by simp)
  unfold runU3
  split
  · unfold execU3Complete
    split
    · exact ⟨_, rfl, UmpStep.of_diag⟩
    · refine ⟨_, rfl, ?_⟩
      unfold State.sx7Complete
      split
      · exact UmpStep.of_diag
      · exact UmpStep.of_deliver (by simp)
  · unfold execU3Start
    split
    · exact ⟨_, rfl, UmpStep.of_diag⟩
    · refine ⟨_, rfl, ?_⟩
      simp only [State.sx7Start, State.setSx7_setSx7]
      split
      · exact setd none _ _
      · exact set _
  · unfold execU3Continue
    split
    · exact ⟨_, rfl, UmpStep.of_diag⟩
    · refine ⟨_, rfl, ?_⟩
      unfold State.sx7Continue
      split
      · exact UmpStep.of_diag
      · split
        · exact setd none _ _
        · exact set _
  · unfold execU3End
    split
    · exact ⟨_, rfl, UmpStep.of_diag⟩
    · refine ⟨_, rfl, ?_⟩
      unfold State.sx7End
      split
      · exact UmpStep.of_diag
      · simp only
        split
        · exact setd none _ _
        · exact UmpStep.of_sx7 none (items := [.ev _]) (by simp)
  · exact ⟨_, rfl, UmpStep.of_diag⟩

theorem runU5_spec (w0 w1 w2 w3 : Word) :
    ∃ t, runU5 w0 w1 w2 w3 s = .next t ∧ UmpStep s t (grpOf w0) 0x5#4 := by
  have set (b) : UmpStep s (s.setSx8 (grpOf w0) b) (grpOf w0) 0x5#4 := by
    simpa using UmpStep.of_sx8 (s := s) (g := grpOf w0) b (items := []) (by simp)
  have setd (b c info) : UmpStep s ((s.setSx8 (grpOf w0) b).diag c info) (grpOf w0) 0x5#4 :=
    UmpStep.of_sx8 b (items := [.dg c info]) (by simp)
  unfold runU5
  split
  · unfold execU5Complete
    split
    · exact ⟨_, rfl, UmpStep.of_diag⟩
    · refine ⟨_, rfl, ?_⟩
      unfold State.sx8Complete
      split
      · exact UmpStep.of_diag
      · exact UmpStep.of_deliver (by simp)
  · unfold execU5Start
    split
    · exact ⟨_, rfl, UmpStep.of_diag⟩
    · refine ⟨_, rfl, ?_⟩
      simp only [State.sx8Start, State.setSx8_setSx8]
      split
      · exact setd none _ _
      · exact set _
  · unfold execU5Continue
    split
    · exact ⟨_, rfl, UmpStep.of_diag⟩
    · refine ⟨_, rfl, ?_⟩
      unfold State.sx8Continue
      split
      · exact UmpStep.of_diag
      · split
        · exact UmpStep.of_diag
        · split
          · exact setd none _ _
          · exact set _
  · unfold execU5End
    split
    · exact ⟨_, rfl, UmpStep.of_diag⟩
    · refine ⟨_, rfl, ?_⟩
      unfold State.sx8End
      split
      · exact UmpStep.of_diag
      · split
        · exact UmpStep.of_diag
        · simp only
          split
          · exact setd none _ _
          · exact UmpStep.of_sx8 none (items := [.ev _]) (by simp)
  · exact ⟨_, rfl, UmpStep.of_diag⟩

/-- What a packet of the right length can do. -/
theorem runPacket_spec (w0 w1 w2 w3 : Word) :
    ∃ t, runPacket w0 w1 w2 w3 s = .next t ∧ UmpStep s t (grpOf w0) (mtOf w0) := by
  unfold runPacket
  split
  · exact runU0_spec w0
  · exact runU1_spec w0
  · rename_i h
    rw [show mtOf w0 = 0x2#4 from BitVec.eq_of_toNat_eq h]
    exact runU2_spec w0
  · rename_i h
    rw [show mtOf w0 = 0x3#4 from BitVec.eq_of_toNat_eq h]
    exact runU3_spec w0 w1
  · exact runU4_spec w0 w1
  · rename_i h
    rw [show mtOf w0 = 0x5#4 from BitVec.eq_of_toNat_eq h]
    exact runU5_spec w0 w1 w2 w3
  all_goals exact ⟨_, rfl, UmpStep.of_diag⟩

/-- What any packet can do. -/
theorem packet_spec (w0 : Word) (rest : List Word) :
    ∃ t, packet w0 rest s = .next t ∧ UmpStep s t (grpOf w0) (mtOf w0) := by
  unfold packet
  split
  · exact ⟨_, rfl, UmpStep.of_diag⟩
  · exact runPacket_spec _ _ _ _

/-! ### What a row of the byte stream can do -/

/-- At most `n` items, no CFG, WF or UP state (R172, R205). -/
structure ByteStep (s t : State) (n : Nat) : Prop where
  cfg : t.cfg = s.cfg
  wf : t.wf = s.wf
  up : t.up = s.up
  sysexMax : t.sysexMax = s.sysexMax
  inp : t.inp = s.inp
  out : ∃ items, items.length ≤ n ∧ t.out = s.out ++ items

/-- Nothing happens. -/
theorem ByteStep.refl (n : Nat) : ByteStep s s n :=
  ⟨rfl, rfl, rfl, rfl, rfl, [], Nat.zero_le n, by simp⟩

/-- A bound may be weakened. -/
theorem ByteStep.mono {m n : Nat} (h : ByteStep s t m) (hmn : m ≤ n) : ByteStep s t n :=
  { h with out := let ⟨items, hl, ho⟩ := h.out; ⟨items, Nat.le_trans hl hmn, ho⟩ }

/-- Two changes in a row. -/
theorem ByteStep.trans {u : State} {m n : Nat} (h : ByteStep s t m) (h' : ByteStep t u n) : ByteStep s u (m + n) := by
  obtain ⟨items, hl, ho⟩ := h.out
  obtain ⟨items', hl', ho'⟩ := h'.out
  exact ⟨h'.cfg.trans h.cfg, h'.wf.trans h.wf, h'.up.trans h.up, h'.sysexMax.trans h.sysexMax, h'.inp.trans h.inp,
    items ++ items', by simp; omega, by rw [ho', ho, List.append_assoc]⟩

/-- The MP fields are free. -/
theorem ByteStep.set_mp {n : Nat} (h : ByteStep s t n) (p : Mp) : ByteStep s { t with mp := p } n :=
  ⟨h.cfg, h.wf, h.up, h.sysexMax, h.inp, h.out⟩

theorem ByteStep.of_oneItem (h : OneItem s t) : ByteStep s t 1 := by
  obtain ⟨g, ch, r, items, hl, rfl⟩ := h
  exact ⟨rfl, rfl, rfl, rfl, rfl, items, hl, rfl⟩

theorem ByteStep.of_diag (c : DiagCode) (info : Word) : ByteStep s (s.diag c info) 1 :=
  ⟨rfl, rfl, rfl, rfl, rfl, [.dg c info], by simp, rfl⟩

theorem ByteStep.of_preempt (b : Byte) : ByteStep s (s.preempt b) 1 := by
  rw [s.preempt_eq]
  refine ⟨rfl, rfl, rfl, rfl, rfl, preemptItems s b, ?_, rfl⟩
  unfold preemptItems
  split
  · simp
  · split
    · simp
    · split <;> simp
  · simp
  · simp

/-- A data byte appends at most one item. -/
theorem dataByte_spec (v : U7) : ByteStep s (s.dataByte v) 1 := by
  unfold State.dataByte
  split
  · split
    · unfold State.dataRunning
      split
      · exact ByteStep.of_oneItem (s.complete_spec _ _ _)
      · exact (ByteStep.refl 1).set_mp _
    · exact ByteStep.of_diag _ _
  · unfold State.dataInMessage
    split
    · simp only
      split <;> exact (ByteStep.of_oneItem (s.complete_spec _ _ _)).set_mp _
    · exact (ByteStep.refl 1).set_mp _
  · unfold State.dataInSysex
    split
    · exact (ByteStep.of_diag (s := s) _ _).set_mp _
    · exact (ByteStep.refl 1).set_mp _
  · exact ByteStep.refl 1

/-- A system byte appends at most two items, a real-time byte at most one. -/
theorem execSystem_spec (n : U4) :
    ∃ t, execSystem n s = .next t ∧ ByteStep s t 2 ∧ (8#4 ≤ n → ByteStep s t 1) := by
  have rt (e : Event) : ByteStep s (s.deliver e) 1 := ByteStep.of_oneItem (s.deliver_spec e)
  have pre (b : Byte) : ByteStep s (s.preempt b) 2 := (ByteStep.of_preempt b).mono (by omega)
  have real {t : State} (h : ByteStep s t 1) : ByteStep s t 2 ∧ (8#4 ≤ n → ByteStep s t 1) :=
    ⟨h.mono (by omega), fun _ => h⟩
  have sys {t : State} {k : Nat} (hk : n.toNat = k) (hlt : k < 8) (h : ByteStep s t 2) :
      ByteStep s t 2 ∧ (8#4 ≤ n → ByteStep s t 1) :=
    ⟨h, fun h8 => absurd h8 (by bv_omega)⟩
  unfold execSystem
  split <;> rename_i hn
  · exact ⟨_, rfl, sys hn (by omega) ((pre _).set_mp _)⟩
  · exact ⟨_, rfl, sys hn (by omega) ((pre _).set_mp _)⟩
  · exact ⟨_, rfl, sys hn (by omega) ((pre _).set_mp _)⟩
  · exact ⟨_, rfl, sys hn (by omega) ((pre _).set_mp _)⟩
  · exact ⟨_, rfl, sys hn (by omega) ((ByteStep.of_preempt _).trans (ByteStep.of_diag _ _))⟩
  · refine ⟨_, rfl, sys hn (by omega) ?_⟩
    simp only [State.busselF5]
    split
    · exact (pre _).set_mp _
    · exact (ByteStep.of_preempt _).trans (ByteStep.of_diag _ _)
  · refine ⟨_, rfl, sys hn (by omega) ?_⟩
    simp only [State.tunereq]
    exact (ByteStep.of_preempt _).trans (ByteStep.of_oneItem (State.deliver_spec _ _))
  · refine ⟨_, rfl, sys hn (by omega) ?_⟩
    simp only [State.eox]
    split
    · exact ((ByteStep.of_preempt _).trans (ByteStep.of_oneItem (State.deliver_spec _ _))).set_mp _
    · exact (pre _).set_mp _
    · exact (ByteStep.of_preempt _).trans (ByteStep.of_diag _ _)
    · exact (ByteStep.of_preempt _).trans (ByteStep.of_diag _ _)
  all_goals first
    | exact ⟨_, rfl, real (rt _)⟩
    | exact ⟨_, rfl, real (ByteStep.of_diag _ _)⟩

/-- A channel status byte appends at most one item. -/
theorem execChannel_spec (nib ch : U4) : ∃ t, execChannel nib ch s = .next t ∧ ByteStep s t 1 := by
  unfold execChannel
  split <;> exact ⟨_, rfl, (ByteStep.of_preempt _).set_mp _⟩

/-- What a byte can do (R172). -/
theorem execByte_spec (b : Byte) : ∃ t, execByte b s = .next t ∧ ByteStep s t 2 ∧
    (b.getLsbD 7 = false ∨ 0xF8#8 ≤ b → ByteStep s t 1) := by
  unfold execByte
  split
  · exact ⟨_, rfl, (dataByte_spec _).mono (by omega), fun _ => dataByte_spec _⟩
  · rename_i h7
    split
    · obtain ⟨t, ht, h2, h1⟩ := execSystem_spec (s := s) (b.extractLsb' 0 4)
      refine ⟨t, ht, h2, ?_⟩
      rintro (h | h)
      · exact absurd (by simpa [isData] using h) h7
      · refine h1 ?_
        have : (b.extractLsb' 0 4).toNat = b.toNat % 16 := by rw [toNat_field]; omega
        have hb := b.isLt
        have h : 0xF8 ≤ b.toNat := h
        show 8 ≤ (b.extractLsb' 0 4).toNat
        omega
    · obtain ⟨t, ht, h1⟩ := execChannel_spec (s := s) (b.extractLsb' 4 4) (b.extractLsb' 0 4)
      exact ⟨t, ht, h1.mono (by omega), fun _ => h1⟩

/-! ### Real-time bytes (R163 to R170) -/

/-- A real-time byte appends its item and changes nothing else. -/
theorem exec_byte_realTime (s : State) {b : Byte} (h : 0xF8#8 ≤ b) :
    exec (.byte b) s = .next (appended s [realTimeItem (s.cfg.extractLsb' 8 4) b]) := by
  have h8 : 0xF8 ≤ b.toNat := h
  have h9 := b.isLt
  rw [show b = BitVec.ofNat 8 b.toNat by simp]
  generalize b.toNat = k at *
  interval_cases k <;> rfl

/-- Real-time bytes in front of a run append their items. -/
theorem execAll_realTime (rest : List Instr) : ∀ (r : List Byte) (s : State), (∀ b ∈ r, 0xF8#8 ≤ b) →
    execAll (r.map .byte ++ rest) s = execAll rest (appended s (realTimeItems s.cfg r))
  | [], s, _ => by simp [realTimeItems]
  | b :: r, s, h => by
    simp only [List.map_cons, List.cons_append, execAll, exec_byte_realTime s (h b (by simp)),
      execAll_realTime rest r _ (fun c hc => h c (by simp [hc]))]
    simp [appended, realTimeItems]

/-! ### What the word port can do, and how a code comes to the port -/

/-- A word changes no MP state and appends at most one item (R205, R402). -/
theorem execWord_spec (s : State) (w : Word) : ∃ t items, execWord w s = .next t ∧ t.out = s.out ++ items ∧
    items.length ≤ 1 ∧ t.mp = s.mp ∧ t.cfg = s.cfg ∧ t.sysexMax = s.sysexMax ∧ t.inp = s.inp := by
  unfold execWord
  split
  · split
    · obtain ⟨t, ht, h⟩ := packet_spec (s := s) w []
      obtain ⟨items, hl, ho⟩ := h.out
      exact ⟨t, items, ht, ho, hl, h.mp, h.cfg, h.sysexMax, h.inp⟩
    · exact ⟨_, [], rfl, by simp, by simp, rfl, rfl, rfl, rfl⟩
  · split
    · rename_i w0 rest _ _
      obtain ⟨t, ht, h⟩ := packet_spec (s := { s with wf := ⟨[], 0⟩ }) w0 (rest ++ [w])
      obtain ⟨items, hl, ho⟩ := h.out
      exact ⟨t, items, ht, ho, hl, h.mp, h.cfg, h.sysexMax, h.inp⟩
    · exact ⟨_, [], rfl, by simp, by simp, rfl, rfl, rfl, rfl⟩

/-- A step of a state with a transaction presented. -/
theorem step_present (s : State) (x : Txn) : step (s.present x) = exec (decodeTxn x) s := rfl

/-- A packet of one to four words comes to the packet port whole (R80). -/
theorem decodeTxn_ump (w0 : Word) {rest : List Word} (h : rest.length ≤ 3) :
    decodeTxn (Code.ump w0 rest).present = .packet w0 rest := by
  match rest, h with
  | [], _ => simp [Code.present, decodeTxn, wordAt]
  | [a], _ => simp [Code.present, decodeTxn, wordAt]
  | [a, b], _ => simp [Code.present, decodeTxn, wordAt]
  | [a, b, c], _ => simp [Code.present, decodeTxn, wordAt]
  | _ :: _ :: _ :: _ :: _, h => simp at h; omega

/-- A controller, presented as the control change that delivers it, runs its row (R244, R310). -/
theorem exec_present_cc (s : State) (g ch : U4) (ctrl v : U7) :
    exec (decodeTxn (Code.cc7 g ch ctrl v).present) s = exec (decodeCc g ch ctrl v) s := by
  have hu : decodeUmp (umpWord 0x2#4 g 0xB#4 ch (dataByteOf ctrl) (dataByteOf v)) [] =
      .ok (.u2Cc g ch (dataByteOf ctrl) (dataByteOf v)) := by
    simp [decodeUmp, wc, umpRow, decodeU2]
  have hp : decodeTxn (Code.cc7 g ch ctrl v).present =
      .packet (umpWord 0x2#4 g 0xB#4 ch (dataByteOf ctrl) (dataByteOf v)) [] := by
    simp [Code.present, decodeTxn]
  have hb : (bit7 (dataByteOf ctrl) || bit7 (dataByteOf v)) = false := by
    simp only [bit7, bit7_dataByteOf, Bool.or_self]
  rw [hp]
  refine (exec_packet_row s hu).trans ?_
  rw [exec_decodeCc]
  simp only [exec, execU2Cc, State.deliverChecked, hb, Bool.false_eq_true, if_false, State.deliver, low7,
    low_dataByteOf]

/-- A word of the opcode table is a packet of at most four words. -/
theorem tableCode_rest {nbits w : Nat} {w0 : Word} {rest : List Word} (h : tableCode nbits w = some (.ump w0 rest)) :
    rest.length ≤ 3 := by
  unfold tableCode at h
  split at h
  · split at h
    · simp at h
    · split at h <;> simp at h
  · split at h
    · simp only [Option.some.injEq, Code.ump.injEq] at h
      rw [← h.2]
      simp only [List.length_take, List.length_cons, List.length_nil]
      omega
    · simp at h

end Sys2Proof.Machine
end

