-- ==== Sys2Proof/Tests/Slice0.lean ====
section
/-! SUPPORT. The model's own tests: ill-formed terms, one word written out from 30_encoding.md or the vectors of
95_test_vectors.md for every row, one step for every row on the vectors' data, and a witness for every hypothesis of the
obligations. Expected results are the spec's, named by vector or rule. -/

namespace Sys2Proof.Tests

open Sys2Proof Sys2Proof.Machine

/-! ### Helpers -/

/-- The state a result goes on in. -/
def nextOf : Result → Option State
  | .next t => some t
  | _ => none

/-- The items a row appends to an empty OUT. -/
def outOf (i : Instr) (s : State) : Option (List Item) := (nextOf (exec i s)).map State.out

/-- The MP a row leaves. -/
def mpOf (i : Instr) (s : State) : Option Mp := (nextOf (exec i s)).map State.mp

/-- The record RA[g][ch] a row leaves. -/
def raOf (i : Instr) (g ch : U4) (s : State) : Option RaRec := (nextOf (exec i s)).map (·.raAt g ch)

/-- After power-on, with another MP. -/
def withMp (p : Mp) : State := { State.reset with mp := p }

/-- A message of status st in progress: one data byte d0 is there. -/
def half (st : Byte) (d0 : U7) : State := withMp ⟨.data, some st, st, 1, d0, []⟩

/-- A SysEx in progress. -/
def inSysex (sx : List U7) : State := withMp ⟨.sysex, none, 0x00#8, 0, 0x00#7, sx⟩

/-- A SysEx that was discarded. -/
def discarding : State := withMp ⟨.sxdiscard, none, 0x00#8, 0, 0x00#7, []⟩

/-- Running status st, nothing in progress. -/
def running (st : Byte) : State := withMp ⟨.idle, some st, st, 0, 0x00#7, []⟩

/-- After power-on, with CFG = c. -/
def withCfg (c : Word) (s : State) : State := { s with cfg := c }

/-- After power-on, with SYSEX_MAX = n. -/
def capped (n : Nat) (s : State) : State := { s with sysexMax := .bytes n }

/-- After power-on, with one RA record. -/
def withRa (g ch : U4) (r : RaRec) : State := State.reset.setRa g ch r

/-! ### Well-formedness: each check refuses an ill-formed term, and its boundary passes -/

theorem test_ill_formed_packet : (Instr.packet 0 [0, 0, 0, 0]).wellFormed = false := by decide
theorem test_ill_formed_u0Other : (Instr.u0Other 0 2 0 0).wellFormed = false := by decide
theorem test_ill_formed_u1Other : (Instr.u1Other 0 0xF6#8 0 0).wellFormed = false := by decide
theorem test_ill_formed_u3Other : (Instr.u3Other 0 3 0 0 0 0).wellFormed = false := by decide
theorem test_ill_formed_u5Other : (Instr.u5Other 0 3 0 0 0 0 0 0).wellFormed = false := by decide
theorem test_ill_formed_raPass : (Instr.raPass 0 0 121 0).wellFormed = false := by decide
theorem test_well_formed_boundaries :
    (Instr.packet 0 [0, 0, 0]).wellFormed = true ∧ (Instr.u0Other 0 3 0 0).wellFormed = true ∧
    (Instr.u1Other 0 0xF0#8 0 0).wellFormed = true ∧ (Instr.u3Other 0 4 0 0 0 0).wellFormed = true ∧
    (Instr.u5Other 0 4 0 0 0 0 0 0).wellFormed = true ∧ (Instr.raPass 0 0 120 0).wellFormed = true := by decide

/-! ### Decoding: a word for every row, written out from its encoding -/

/-- R80: tag, len, and data with word i at bits 32i+31:32i. -/
theorem test_decode_transactions :
    decodeTxn ⟨0, 0, 0x90#128⟩ = .byte 0x90#8 ∧ decodeTxn ⟨1, 0, 0x20904060#128⟩ = .word 0x20904060#32 ∧
    decodeTxn ⟨2, 3, 0x00000004000000030000000250037701#128⟩ = .packet 0x50037701#32 [2#32, 3#32, 4#32] ∧
    decodeTxn ⟨3, 0, 0⟩ = .reset ∧ decodeTxn ⟨4, 0, 0x335#128⟩ = .config 0x335#32 ∧
    decodeTxn ⟨5, 0, 0⟩ = .tagRsvd5 ∧ decodeTxn ⟨6, 0, 0⟩ = .tagRsvd6 ∧ decodeTxn ⟨7, 0, 0⟩ = .tagRsvd7 := by decide

/-- R82, R84, R85: data bytes, and the channel status bytes 0x8n to 0xEn. -/
theorem test_decode_bytes :
    decodeByte .rs 0x7F#8 = .dataRs 0x7F#7 ∧ decodeByte .orphan 0x41#8 = .dataOrphan 0x41#7 ∧
    decodeByte .data 0x00#8 = .dataData 0x00#7 ∧ decodeByte .sysex 0x7D#8 = .dataSysex 0x7D#7 ∧
    decodeByte .sxdiscard 0x01#8 = .dataSxdiscard 0x01#7 ∧
    decodeByte .data 0x8F#8 = .noteoff 15 ∧ decodeByte .data 0x90#8 = .noteon 0 ∧ decodeByte .data 0xA1#8 = .polypress 1 ∧
    decodeByte .data 0xB2#8 = .cc 2 ∧ decodeByte .data 0xC3#8 = .progchg 3 ∧ decodeByte .data 0xD4#8 = .chanpress 4 ∧
    decodeByte .data 0xE5#8 = .pitchbend 5 := by decide

/-- R85: the system bytes. -/
theorem test_decode_system_bytes :
    [0xF0#8, 0xF1#8, 0xF2#8, 0xF3#8, 0xF4#8, 0xF5#8, 0xF6#8, 0xF7#8, 0xF8#8, 0xF9#8, 0xFA#8, 0xFB#8, 0xFC#8, 0xFD#8,
      0xFE#8, 0xFF#8].map (decodeByte .orphan) =
    [.sysexStart, .mtcQf, .songpos, .songsel, .undefF4, .busselF5, .tunereq, .eox, .clock, .undefF9, .rtStart,
      .rtContinue, .rtStop, .undefFd, .actsense, .sysreset] := by decide

/-- R96, R97: MT 0x0 and 0x1 (V-U0a to V-U1f). -/
theorem test_decode_mt0_mt1 :
    decodeUmp 0x00000000#32 [] = .ok (.u0Noop 0 0 0) ∧ decodeUmp 0x0F101234#32 [] = .ok (.u0Jrclock 15 0 0x1234#16) ∧
    decodeUmp 0x00200001#32 [] = .ok (.u0Jrts 0 0 1) ∧ decodeUmp 0x00300000#32 [] = .ok (.u0Other 0 3 0 0) ∧
    decodeUmp 0x10F12300#32 [] = .ok (.u1MtcQf 0 0x23#8 0) ∧ decodeUmp 0x10F21001#32 [] = .ok (.u1Songpos 0 0x10#8 1) ∧
    decodeUmp 0x11F30400#32 [] = .ok (.u1Songsel 1 4 0) ∧ decodeUmp 0x10F50300#32 [] = .ok (.u1Bussel 0 3 0) ∧
    decodeUmp 0x12F60000#32 [] = .ok (.u1Tunereq 2 0 0) ∧ decodeUmp 0x13F80000#32 [] = .ok (.u1Clock 3 0 0) ∧
    decodeUmp 0x14FA0000#32 [] = .ok (.u1Start 4 0 0) ∧ decodeUmp 0x15FB0000#32 [] = .ok (.u1Continue 5 0 0) ∧
    decodeUmp 0x16FC0000#32 [] = .ok (.u1Stop 6 0 0) ∧ decodeUmp 0x17FE0000#32 [] = .ok (.u1Actsense 7 0 0) ∧
    decodeUmp 0x10FF0000#32 [] = .ok (.u1Sysreset 0 0 0) ∧ decodeUmp 0x10F90000#32 [] = .ok (.u1Other 0 0xF9#8 0 0) := by
  decide

/-- R98, R99: MT 0x2 and 0x3 (V-U2a to V-U2e, T4, V-S1 to V-S11). -/
theorem test_decode_mt2_mt3 :
    decodeUmp 0x21834102#32 [] = .ok (.u2Noteoff 1 3 0x41#8 2) ∧ decodeUmp 0x20904060#32 [] = .ok (.u2Noteon 0 0 0x40#8 0x60#8) ∧
    decodeUmp 0x20A13C7F#32 [] = .ok (.u2Polypress 0 1 0x3C#8 0x7F#8) ∧ decodeUmp 0x22B36205#32 [] = .ok (.u2Cc 2 3 0x62#8 5) ∧
    decodeUmp 0x20C205FF#32 [] = .ok (.u2Progchg 0 2 5 0xFF#8) ∧ decodeUmp 0x20D50A00#32 [] = .ok (.u2Chanpress 0 5 0x0A#8 0) ∧
    decodeUmp 0x20E00040#32 [] = .ok (.u2Pitchbend 0 0 0 0x40#8) ∧
    decodeUmp 0x20704040#32 [] = .ok (.u2Other07 0 7 0 0x40#8 0x40#8) ∧ decodeUmp 0x20F04040#32 [] = .ok (.u2OtherF 0 0 0x40#8 0x40#8) ∧
    decodeUmp 0x30030102#32 [0x03000000#32] = .ok (.u3Complete 0 3 1 2 0x03000000#32) ∧
    decodeUmp 0x31110200#32 [0] = .ok (.u3Start 1 1 2 0 0) ∧ decodeUmp 0x30220102#32 [0] = .ok (.u3Continue 0 2 1 2 0) ∧
    decodeUmp 0x30320405#32 [0] = .ok (.u3End 0 2 4 5 0) ∧ decodeUmp 0x30400000#32 [0] = .ok (.u3Other 0 4 0 0 0 0) := by decide

/-- R100, R101: MT 0x4 (V-U4a to V-U4o). -/
theorem test_decode_mt4 :
    decodeUmp 0x40003CFF#32 [7] = .ok (.u4Pnrc 0 0 0x3C#8 0xFF#8 7) ∧ decodeUmp 0x40113C05#32 [7] = .ok (.u4Pnac 0 1 0x3C#8 5 7) ∧
    decodeUmp 0x40220001#32 [0x40000000#32] = .ok (.u4Rc 0 2 0 1 0x40000000#32) ∧ decodeUmp 0x40330102#32 [9] = .ok (.u4Ac 0 3 1 2 9) ∧
    decodeUmp 0x40420001#32 [1] = .ok (.u4Rrc 0 2 0 1 1) ∧ decodeUmp 0x40520001#32 [1] = .ok (.u4Rac 0 2 0 1 1) ∧
    decodeUmp 0x40603C00#32 [2] = .ok (.u4Pnpb 0 0 0x3C#8 0 2) ∧ decodeUmp 0x40700000#32 [0] = .ok (.u4Op7 0 0 0 0 0) ∧
    decodeUmp 0x40803C00#32 [3] = .ok (.u4Noteoff 0 0 0x3C#8 0 3) ∧
    decodeUmp 0x40904003#32 [0xFFFF1234#32] = .ok (.u4Noteon 0 0 0x40#8 3 0xFFFF1234#32) ∧
    decodeUmp 0x40A03C00#32 [4] = .ok (.u4Polypress 0 0 0x3C#8 0 4) ∧ decodeUmp 0x40B06500#32 [0] = .ok (.u4Cc 0 0 0x65#8 0 0) ∧
    decodeUmp 0x40C00001#32 [0x85000000#32] = .ok (.u4Progchg 0 0 0 1 0x85000000#32) ∧
    decodeUmp 0x40D50000#32 [0xFFFFFFFF#32] = .ok (.u4Chanpress 0 5 0 0 0xFFFFFFFF#32) ∧
    decodeUmp 0x40E60000#32 [5] = .ok (.u4Pitchbend 0 6 0 0 5) ∧ decodeUmp 0x40F03C03#32 [0] = .ok (.u4Pnmgmt 0 0 0x3C#8 3 0) := by decide

/-- R102, R104: MT 0x5 and 0x6 to 0xF (V-S9 to V-S11, V-WF6). -/
theorem test_decode_mt5_up :
    decodeUmp 0x50037701#32 [0x02FF0000#32, 0, 0] = .ok (.u5Complete 0 3 0x77#8 1 0x02FF0000#32 0 0) ∧
    decodeUmp 0x50120580#32 [1, 2, 3] = .ok (.u5Start 0 2 5 0x80#8 1 2 3) ∧
    decodeUmp 0x50230681#32 [1, 2, 3] = .ok (.u5Continue 0 3 6 0x81#8 1 2 3) ∧
    decodeUmp 0x53320581#32 [1, 2, 3] = .ok (.u5End 3 2 5 0x81#8 1 2 3) ∧
    decodeUmp 0x50800000#32 [0, 0, 0] = .ok (.u5Other 0 8 0 0 0 0 0 0) ∧
    decodeUmp 0x61000002#32 [] = .ok (.u6 1 2) ∧ decodeUmp 0x71000002#32 [] = .ok (.u7 1 2) ∧
    decodeUmp 0x80ABCDEF#32 [1] = .ok (.u8 0 0xABCDEF#24 1) ∧ decodeUmp 0x90000000#32 [1] = .ok (.u9 0 0 1) ∧
    decodeUmp 0xA0000000#32 [1] = .ok (.uA 0 0 1) ∧ decodeUmp 0xB0000000#32 [1, 2] = .ok (.uB 0 0 1 2) ∧
    decodeUmp 0xC0000000#32 [1, 2] = .ok (.uC 0 0 1 2) ∧ decodeUmp 0xD0000000#32 [1, 2, 3] = .ok (.uD 0 0 1 2 3) ∧
    decodeUmp 0xE0000000#32 [1, 2, 3] = .ok (.uE 0 0 1 2 3) ∧ decodeUmp 0xFF000001#32 [1, 2, 3] = .ok (.uF 15 1 1 2 3) := by decide

/-- R202: a length that is not the message type's is refused by name (V-WF4, V-WF5). -/
theorem test_decode_length :
    decodeUmp 0x40904000#32 [] = .error .length ∧ decodeUmp 0x50010000#32 [0] = .error .length ∧
    decodeUmp 0x20904060#32 [0] = .error .length := by decide

/-- R121: the controllers the RA acts on, and one it passes. -/
theorem test_decode_controllers :
    [101#7, 100#7, 99#7, 98#7, 6#7, 38#7, 96#7, 97#7, 121#7, 7#7].map (fun c => decodeCc 2 3 c 0x50#7) =
    [.raCc101 2 3 0x50#7, .raCc100 2 3 0x50#7, .raCc99 2 3 0x50#7, .raCc98 2 3 0x50#7, .raCc6 2 3 0x50#7,
      .raCc38 2 3 0x50#7, .raCc96 2 3 0x50#7, .raCc97 2 3 0x50#7, .raCc121 2 3 0x50#7, .raPass 2 3 7 0x50#7] := by decide

/-- Words of the opcode table, and the step that runs them from reset. -/
theorem test_table_words :
    decodeTableWord 8 3 = some .reset ∧ decodeTableWord 8 0x40 = some (.dataOrphan 0x40#7) ∧
    decodeTableWord 8 0x93 = some (.noteon 3) ∧ decodeTableWord 8 0x65 = some (.raCc101 0 0 0) ∧
    decodeTableWord 32 0x30300000 = some (.u3End 0 0 0 0 0) ∧ decodeTableWord 32 0xF0000000 = some (.uF 0 0 0 0 0) := by decide

theorem test_fetch_word :
    (nextOf (step (State.reset.withFetchWord 32 0x20904060))).map State.out =
      some [.ev (.noteOn1 0 0 0x40#7 0x60#7)] := by decide

/-! ### Transactions -/

theorem test_byte : outOf (.byte 0x7F#8) (half 0x90#8 0x40#7) = some [.ev (.noteOn1 0 0 0x40#7 0x7F#7)] := by decide
theorem test_word_first : (nextOf (exec (.word 0x40904000#32) State.reset)).map State.wf =
    some ⟨[0x40904000#32], 2⟩ := by decide
/-- V-WF2, second word. -/
theorem test_word_last :
    outOf (.word 0xFFFF0000#32) { State.reset with wf := ⟨[0x40904000#32], 2⟩ } =
      some [.ev (.noteOn2 0 0 0x40#7 0 0xFFFF#16 0)] := by decide
theorem test_packet : outOf (.packet 0x20904060#32 []) State.reset = some [.ev (.noteOn1 0 0 0x40#7 0x60#7)] := by decide
/-- V-WF5. -/
theorem test_packet_length : outOf (.packet 0x50010000#32 [0]) State.reset = some [.dg .length 0x50010000#32] := by decide
/-- V-C1. -/
theorem test_reset : mpOf .reset (half 0x90#8 0x40#7) = some ⟨.idle, none, 0x00#8, 0, 0x00#7, []⟩ := by decide
/-- V-C2. -/
theorem test_config : (nextOf (exec (.config 0xFFFFFFFF#32) State.reset)).map State.cfg = some 0x00000F3F#32 := by decide
/-- V-C3. -/
theorem test_reserved_tags :
    outOf .tagRsvd5 State.reset = some [.dg .unsupported 5#32] ∧ outOf .tagRsvd6 State.reset = some [.dg .unsupported 6#32] ∧
    outOf .tagRsvd7 State.reset = some [.dg .unsupported 7#32] := by decide

/-! ### Data bytes -/

/-- V-MP3 and V-MP1. -/
theorem test_data_rs :
    outOf (.dataRs 2) (running 0xC0#8) = some [.ev (.programChange1 0 0 2)] ∧
    mpOf (.dataRs 0x40#7) (running 0x90#8) = some ⟨.data, some 0x90#8, 0x90#8, 1, 0x40#7, []⟩ := by decide
/-- V-C1. -/
theorem test_data_orphan : outOf (.dataOrphan 0x41#7) State.reset = some [.dg .orphanData 0x41#32] := by decide
/-- T3: velocity 0 with the translation on. -/
theorem test_data_data : outOf (.dataData 0) (half 0x90#8 0x40#7) = some [.ev (.noteOff1 0 0 0x40#7 0)] := by decide
/-- V-MP2 and V-MP19. -/
theorem test_data_data_policy :
    outOf (.dataData 0) (withCfg 0x34#32 (half 0x90#8 0x40#7)) = some [.ev (.noteOn1 0 0 0x40#7 0)] ∧
    outOf (.dataData 0x40#7) (withMp ⟨.data, none, 0xF2#8, 1, 0, []⟩) = some [.ev (.songPosition 0 0x2000#14)] := by decide
/-- V-MP18: the payload reaches the limit. -/
theorem test_data_sysex : mpOf (.dataSysex 2) (capped 2 (inSysex [1])) =
    some ⟨.sysex, none, 0x00#8, 0, 0x00#7, [1, 2]⟩ := by decide
/-- V-MP17: and passes it. -/
theorem test_data_sysex_overflow :
    outOf (.dataSysex 3) (capped 2 (inSysex [1, 2])) = some [.dg .sysexOverflow 2#32] ∧
    mpOf (.dataSysex 3) (capped 2 (inSysex [1, 2])) = some ⟨.sxdiscard, none, 0x00#8, 0, 0x00#7, []⟩ := by decide
theorem test_data_sxdiscard : nextOf (exec (.dataSxdiscard 4) discarding) = some discarding := by decide
/-- A row the state does not select is refused by name. -/
theorem test_data_not_selected :
    (match exec (.dataData 4) State.reset with | .refused r => some r | _ => none) = some (.notSelected "DATA.DATA") := by
  decide

/-! ### Channel status bytes -/

/-- V-MP5: a status byte truncates the message in progress. -/
theorem test_noteoff :
    outOf (.noteoff 0) (half 0x90#8 0x40#7) = some [.dg .truncated 0x90#32] ∧
    mpOf (.noteoff 0) (half 0x90#8 0x40#7) = some ⟨.data, some 0x80#8, 0x80#8, 0, 0x40#7, []⟩ := by decide
/-- V-MP9. -/
theorem test_noteon :
    outOf (.noteon 0) (inSysex [1]) = some [.dg .sysexAborted 0x90#32] ∧
    mpOf (.noteon 0) (inSysex [1]) = some ⟨.data, some 0x90#8, 0x90#8, 0, 0x00#7, []⟩ := by decide
/-- V-MP10. -/
theorem test_noteon_sysex_emitted :
    outOf (.noteon 0) (withCfg 0x3D#32 (inSysex [1])) = some [.ev (.sysEx7 0 [1])] := by decide
theorem test_channel_statuses :
    (mpOf (.polypress 1) State.reset).map (·.rs) = some (some 0xA1#8) ∧ (mpOf (.cc 2) State.reset).map (·.rs) = some (some 0xB2#8) ∧
    (mpOf (.progchg 3) State.reset).map (·.cur) = some 0xC3#8 ∧ (mpOf (.chanpress 4) discarding).map (·.mode) = some .data ∧
    (mpOf (.pitchbend 5) State.reset).map (·.cur) = some 0xE5#8 := by decide

/-! ### System bytes -/

/-- V-MP23. -/
theorem test_sysex_start :
    outOf .sysexStart (inSysex [1]) = some [.dg .sysexAborted 0xF0#32] ∧
    mpOf .sysexStart (running 0x90#8) = some ⟨.sysex, none, 0x90#8, 0, 0x00#7, []⟩ := by decide
theorem test_system_common :
    mpOf .mtcQf (running 0x90#8) = some ⟨.data, none, 0xF1#8, 0, 0x00#7, []⟩ ∧
    mpOf .songpos (running 0x90#8) = some ⟨.data, none, 0xF2#8, 0, 0x00#7, []⟩ ∧
    mpOf .songsel (withCfg 0x31#32 (running 0x90#8)) = some ⟨.data, some 0x90#8, 0xF3#8, 0, 0x00#7, []⟩ := by decide
/-- V-MP13. -/
theorem test_undefined :
    outOf .undefF4 State.reset = some [.dg .undefined 0xF4#32] ∧ outOf .undefF9 State.reset = some [.dg .undefined 0xF9#32] ∧
    outOf .undefFd State.reset = some [.dg .undefined 0xFD#32] := by decide
/-- V-MP15 and V-MP16. -/
theorem test_bussel :
    mpOf .busselF5 State.reset = some ⟨.data, none, 0xF5#8, 0, 0x00#7, []⟩ ∧
    outOf .busselF5 (withCfg 0x15#32 State.reset) = some [.dg .undefined 0xF5#32] := by decide
/-- V-MP6. -/
theorem test_tunereq :
    outOf .tunereq (running 0x90#8) = some [.ev (.tuneRequest 0)] ∧ (mpOf .tunereq (running 0x90#8)).map (·.rs) = some none := by
  decide
/-- V-MP20 and V-MP17's last byte. -/
theorem test_eox :
    outOf .eox (inSysex []) = some [.ev (.sysEx7 0 [])] ∧ outOf .eox discarding = some [] ∧
    (mpOf .eox discarding).map (·.mode) = some .idle := by decide
/-- V-MP12: two items from one byte. -/
theorem test_eox_orphan :
    outOf .eox (half 0x90#8 0x40#7) = some [.dg .truncated 0x90#32, .dg .orphanEox 0xF7#32] ∧
    (mpOf .eox (half 0x90#8 0x40#7)).map (·.rs) = some none := by decide
/-- V-MP4: real-time keeps the partial message. -/
theorem test_clock :
    outOf .clock (half 0x90#8 0x40#7) = some [.ev (.timingClock 0)] ∧
    mpOf .clock (half 0x90#8 0x40#7) = some (half 0x90#8 0x40#7).mp := by decide
/-- The group is CFG.M1_GROUP (V-MP21). -/
theorem test_real_time :
    outOf .rtStart (withCfg 0x335#32 State.reset) = some [.ev (.start 3)] ∧ outOf .rtContinue State.reset = some [.ev (.contin 0)] ∧
    outOf .rtStop State.reset = some [.ev (.stop 0)] ∧ outOf .actsense State.reset = some [.ev (.activeSensing 0)] := by decide
/-- V-MP24: no reset of the block. -/
theorem test_sysreset :
    outOf .sysreset (running 0x90#8) = some [.ev (.systemReset 0)] ∧
    mpOf .sysreset (running 0x90#8) = some (running 0x90#8).mp := by decide

/-! ### UMP messages -/

/-- V-U0a to V-U0d. -/
theorem test_utility :
    outOf (.u0Noop 0 0 0) State.reset = some [.ev (.noOp 0)] ∧
    outOf (.u0Jrclock 15 0 0x1234#16) State.reset = some [.ev (.jrClock 15 0x1234#16)] ∧
    outOf (.u0Jrts 0 0 1) State.reset = some [.ev (.jrTimestamp 0 1)] ∧
    outOf (.u0Other 0 3 0 0) State.reset = some [.dg .unsupported 0x00300000#32] := by decide
/-- V-U1a to V-U1d. -/
theorem test_mt1_data :
    outOf (.u1MtcQf 0 0x23#8 0) State.reset = some [.ev (.quarterFrame 0 0x23#7)] ∧
    outOf (.u1Songpos 0 0x80#8 0) State.reset = some [.dg .range 0x10F28000#32] ∧
    outOf (.u1Songpos 0 0x10#8 1) State.reset = some [.ev (.songPosition 0 0x90#14)] ∧
    outOf (.u1Songsel 1 4 0xFF#8) State.reset = some [.ev (.songSelect 1 4)] ∧
    outOf (.u1Bussel 0 3 0) State.reset = some [.ev (.busSelect 0 3)] ∧
    outOf (.u1Bussel 0 3 0) (withCfg 0x15#32 State.reset) = some [.dg .unsupported 0x10F50300#32] := by decide
/-- V-U1e, V-U1f: and no other MP state is touched. -/
theorem test_mt1_plain :
    outOf (.u1Tunereq 2 0 0) State.reset = some [.ev (.tuneRequest 2)] ∧ outOf (.u1Clock 3 0 0) State.reset = some [.ev (.timingClock 3)] ∧
    outOf (.u1Start 4 0 0) State.reset = some [.ev (.start 4)] ∧ outOf (.u1Continue 5 0 0) State.reset = some [.ev (.contin 5)] ∧
    outOf (.u1Stop 6 0 0) State.reset = some [.ev (.stop 6)] ∧ outOf (.u1Actsense 7 0 0) State.reset = some [.ev (.activeSensing 7)] ∧
    mpOf (.u1Sysreset 0 0 0) (half 0x90#8 0x40#7) = some (half 0x90#8 0x40#7).mp ∧
    outOf (.u1Other 0 0xF9#8 0 0) State.reset = some [.dg .unsupported 0x10F90000#32] := by decide
/-- V-U2a to V-U2e. -/
theorem test_mt2 :
    outOf (.u2Noteoff 1 3 0x41#8 2) State.reset = some [.ev (.noteOff1 1 3 0x41#7 2)] ∧
    outOf (.u2Noteon 0 0 0x40#8 0) State.reset = some [.ev (.noteOn1 0 0 0x40#7 0)] ∧
    outOf (.u2Noteon 0 0 0x80#8 0x40#8) State.reset = some [.dg .range 0x20908040#32] ∧
    outOf (.u2Polypress 0 1 0x3C#8 0x7F#8) State.reset = some [.ev (.polyPressure1 0 1 0x3C#7 0x7F#7)] ∧
    outOf (.u2Progchg 0 2 5 0xFF#8) State.reset = some [.ev (.programChange1 0 2 5)] ∧
    outOf (.u2Chanpress 0 5 0x0A#8 0) State.reset = some [.ev (.channelPressure1 0 5 0x0A#7)] ∧
    outOf (.u2Pitchbend 0 0 0 0x40#8) State.reset = some [.ev (.pitchBend1 0 0 0x2000#14)] ∧
    outOf (.u2Other07 0 7 0 0x40#8 0x40#8) State.reset = some [.dg .unsupported 0x20704040#32] ∧
    outOf (.u2OtherF 0 0 0x40#8 0x40#8) State.reset = some [.dg .unsupported 0x20F04040#32] := by decide
/-- P3, row 4. -/
theorem test_u2_cc :
    raOf (.u2Cc 2 3 6 0x10#8) 2 3 (withRa 2 3 ⟨some .rpn, some 0, some 2, none, none⟩) =
      some ⟨some .rpn, some 0, some 2, some 0x10#7, none⟩ ∧
    outOf (.u2Cc 0 0 7 0x80#8) State.reset = some [.dg .range 0x20B00780#32] := by decide
/-- V-U4a to V-U4o, the notes. -/
theorem test_mt4_notes :
    outOf (.u4Noteon 0 0 0x40#8 3 0xFFFF1234#32) State.reset = some [.ev (.noteOn2 0 0 0x40#7 3 0xFFFF#16 0x1234#16)] ∧
    outOf (.u4Noteon 0 0 0xC0#8 0 0) State.reset = some [.dg .range 0x4090C000#32] ∧
    outOf (.u4Noteoff 0 0 0x3C#8 0 0x00010002#32) State.reset = some [.ev (.noteOff2 0 0 0x3C#7 0 1 2)] ∧
    outOf (.u4Pnrc 0 0 0x3C#8 0xFF#8 7) State.reset = some [.ev (.perNoteController 0 0 0x3C#7 true 0xFF#8 7)] ∧
    outOf (.u4Pnac 0 1 0x3C#8 5 7) State.reset = some [.ev (.perNoteController 0 1 0x3C#7 false 5 7)] ∧
    outOf (.u4Pnpb 0 0 0x3C#8 0 2) State.reset = some [.ev (.perNotePitchBend 0 0 0x3C#7 2)] ∧
    outOf (.u4Polypress 0 0 0x3C#8 0 4) State.reset = some [.ev (.polyPressure2 0 0 0x3C#7 4)] ∧
    outOf (.u4Pnmgmt 0 0 0x3C#8 3 0) State.reset = some [.ev (.perNoteManagement 0 0 0x3C#7 true true)] ∧
    outOf (.u4Pnmgmt 0 0 0x3C#8 1 0) State.reset = some [.ev (.perNoteManagement 0 0 0x3C#7 false true)] := by decide
theorem test_mt4_parameters :
    outOf (.u4Rc 0 2 0 1 0x40000000#32) State.reset = some [.ev (.paramNumber 0 2 .rpn 1 .abs (.v32 0x40000000#32))] ∧
    outOf (.u4Rc 0 2 0x80#8 0 0) State.reset = some [.dg .range 0x40228000#32] ∧
    outOf (.u4Ac 0 3 1 2 9) State.reset = some [.ev (.paramNumber 0 3 .nrpn 130 .abs (.v32 9))] ∧
    outOf (.u4Rrc 0 2 0 1 0xFFFFFFFF#32) State.reset = some [.ev (.paramNumber 0 2 .rpn 1 .dec (.v32 1))] ∧
    outOf (.u4Rrc 0 2 0 1 0x80000000#32) State.reset = some [.ev (.paramNumber 0 2 .rpn 1 .dec (.v32 0x80000000#32))] ∧
    outOf (.u4Rac 0 2 0 1 0) State.reset = some [.ev (.paramNumber 0 2 .nrpn 1 .inc (.v32 0))] := by decide
theorem test_mt4_channel :
    outOf (.u4Cc 0 0 0x65#8 0 0) State.reset = some [.ev (.controlChange2 0 0 101 0)] ∧
    outOf (.u4Progchg 0 0 0 0 0x05FFFFFF#32) State.reset = some [.ev (.programChange2 0 0 5 false 0 0)] ∧
    outOf (.u4Progchg 0 0 0 1 0x85000000#32) State.reset = some [.dg .range 0x40C00001#32] ∧
    outOf (.u4Progchg 0 0 0 1 0x05008000#32) State.reset = some [.dg .range 0x40C00001#32] ∧
    outOf (.u4Chanpress 0 5 0 0 0xFFFFFFFF#32) State.reset = some [.ev (.channelPressure2 0 5 0xFFFFFFFF#32)] ∧
    outOf (.u4Pitchbend 0 6 0x80#8 0 5) State.reset = some [.ev (.pitchBend2 0 6 5)] ∧
    outOf (.u4Op7 0 0 0 0 0) State.reset = some [.dg .unsupported 0x40700000#32] := by decide
/-- R268, V-WF6, V-WF8, P4. -/
theorem test_reserved_types :
    [Instr.u6 0 0, .u7 0 0, .u8 0 0 1, .u9 0 0 1, .uA 0 0 1, .uB 0 0 1 2, .uC 0 0 1 2, .uD 0 0 1 2 3, .uE 0 0 1 2 3,
      .uF 15 0xFF0000#24 1 2 3].map (fun i => outOf i State.reset) =
    [0x60000000#32, 0x70000000#32, 0x80000000#32, 0x90000000#32, 0xA0000000#32, 0xB0000000#32, 0xC0000000#32,
      0xD0000000#32, 0xE0000000#32, 0xFFFF0000#32].map (fun w => some [.dg .unsupported w]) := by decide

/-! ### UMP SysEx -/

/-- V-S1, V-S2, V-S3, V-S4, V-S13. -/
theorem test_u3_complete :
    outOf (.u3Complete 0 3 1 2 0x03000000#32) State.reset = some [.ev (.sysEx7 0 [1, 2, 3])] ∧
    outOf (.u3Complete 0 7 0 0 0) State.reset = some [.dg .range 0x30070000#32] ∧
    outOf (.u3Complete 0 1 0x80#8 0 0) State.reset = some [.dg .range 0x30018000#32] ∧
    outOf (.u3Complete 0 1 1 0x80#8 0xFFFFFFFF#32) State.reset = some [.ev (.sysEx7 0 [1])] ∧
    outOf (.u3Complete 0 14 0 0 0) State.reset = some [.dg .range 0x300E0000#32] := by decide
/-- T4b: the second start wins. -/
theorem test_u3_start :
    (nextOf (exec (.u3Start 0 1 0x0C#8 0 0) (State.reset.setSx7 0 (some [0x0A#7, 0x0B#7])))).map (·.sx7At 0) =
      some (some [0x0C#7]) := by decide
/-- P2, row 5, and V-S5. -/
theorem test_u3_continue :
    (nextOf (exec (.u3Continue 0 2 7 8 0) (State.reset.setSx7 0 (some [1, 2, 3, 4, 5, 6])))).map (·.sx7At 0) =
      some (some [1, 2, 3, 4, 5, 6, 7, 8]) ∧
    outOf (.u3Continue 0 2 1 2 0) State.reset = some [.dg .sysexSequence 0x30220102#32] := by decide
/-- V-S8: the buffer is gone after the overflow. -/
theorem test_u3_continue_overflow :
    outOf (.u3Continue 0 1 3 0 0) ((capped 2 State.reset).setSx7 0 (some [1, 2])) = some [.dg .sysexOverflow 2#32] ∧
    (nextOf (exec (.u3Continue 0 1 3 0 0) ((capped 2 State.reset).setSx7 0 (some [1, 2])))).map (·.sx7At 0) = some none := by
  decide
/-- T4a and V-S6. -/
theorem test_u3_end :
    outOf (.u3End 0 2 4 5 0) (State.reset.setSx7 0 (some [1, 2, 3])) = some [.ev (.sysEx7 0 [1, 2, 3, 4, 5])] ∧
    outOf (.u3End 1 1 4 0 0) (State.reset.setSx7 0 (some [1])) = some [.dg .sysexSequence 0x31310400#32] := by decide
/-- V-S11. -/
theorem test_other_statuses :
    outOf (.u3Other 0 4 0 0 0 0) State.reset = some [.dg .unsupported 0x30400000#32] ∧
    outOf (.u5Other 0 8 0 0 0 0 0 0) State.reset = some [.dg .unsupported 0x50800000#32] := by decide
/-- V-S10, V-WF3. -/
theorem test_u5_complete :
    outOf (.u5Complete 0 0 0 0 0 0 0) State.reset = some [.dg .range 0x50000000#32] ∧
    outOf (.u5Complete 0 15 0 0 0 0 0) State.reset = some [.dg .range 0x500F0000#32] ∧
    outOf (.u5Complete 0 1 5 0 0 0 0) State.reset = some [.ev (.sysEx8 0 5 [])] ∧
    outOf (.u5Complete 0 3 0x77#8 1 0x02FF0000#32 0 0) State.reset = some [.ev (.sysEx8 0 0x77#8 [1, 2])] := by decide
/-- V-S9, row by row. -/
theorem test_u5_start :
    (nextOf (exec (.u5Start 0 2 5 0x80#8 0 0 0) State.reset)).map (·.sx8At 0) = some (some ⟨5, [0x80#8]⟩) := by decide
theorem test_u5_continue :
    outOf (.u5Continue 0 3 6 0x81#8 0 0 0) (State.reset.setSx8 0 (some ⟨5, [0x80#8]⟩)) = some [.dg .sysexStream 0x50230681#32] ∧
    (nextOf (exec (.u5Continue 0 2 5 0x81#8 0 0 0) (State.reset.setSx8 0 (some ⟨5, [0x80#8]⟩)))).map (·.sx8At 0) =
      some (some ⟨5, [0x80#8, 0x81#8]⟩) := by decide
theorem test_u5_end :
    outOf (.u5End 0 2 5 0x81#8 0 0 0) (State.reset.setSx8 0 (some ⟨5, [0x80#8]⟩)) =
      some [.ev (.sysEx8 0 5 [0x80#8, 0x81#8])] := by decide

/-! ### The RPN/NRPN assembler -/

/-- T5 and T6. -/
theorem test_number_msb :
    raOf (.raCc101 0 2 0) 0 2 State.reset = some ⟨some .rpn, some 0, none, none, none⟩ ∧
    raOf (.raCc101 0 0 127) 0 0 (withRa 0 0 ⟨some .rpn, some 0, some 1, none, none⟩) =
      some ⟨some .rpn, some 127, some 1, none, none⟩ := by decide
theorem test_number_lsb :
    raOf (.raCc100 0 2 1) 0 2 (withRa 0 2 ⟨some .rpn, some 0, none, none, none⟩) = some ⟨some .rpn, some 0, some 1, none, none⟩ ∧
    raOf (.raCc100 0 0 127) 0 0 (withRa 0 0 ⟨some .rpn, some 127, some 1, none, none⟩) = some RaRec.empty := by decide
/-- P3, rows 6 and 8: a number of the other kind is discarded. -/
theorem test_nrpn :
    raOf (.raCc99 2 3 1) 2 3 (withRa 2 3 ⟨some .rpn, some 0, some 2, some 0x10#7, some 0x20#7⟩) =
      some ⟨some .nrpn, some 1, none, none, none⟩ ∧
    raOf (.raCc98 2 3 5) 2 3 (withRa 2 3 ⟨some .nrpn, some 1, none, none, none⟩) = some ⟨some .nrpn, some 1, some 5, none, none⟩ := by
  decide
/-- V-R3 and V-R4. -/
theorem test_data_entry_msb :
    outOf (.raCc6 0 0 2) (withRa 0 0 ⟨some .rpn, some 0, some 0, none, none⟩) = some [] ∧
    outOf (.raCc6 0 0 2) (withCfg 0x37#32 (withRa 0 0 ⟨some .rpn, some 0, some 0, none, none⟩)) =
      some [.ev (.paramNumber 0 0 .rpn 0 .abs (.v7 2 0))] := by decide
/-- V-R1. -/
theorem test_data_entry_lsb :
    outOf (.raCc38 0 0 2) (withRa 0 0 ⟨some .nrpn, some 5, some 0x10#7, some 1, none⟩) =
      some [.ev (.paramNumber 0 0 .nrpn 0x0290#14 .abs (.v7 1 2))] ∧
    outOf (.raCc38 0 0 2) (withRa 0 0 ⟨some .nrpn, some 5, some 0x10#7, none, none⟩) = some [] := by decide
/-- V-R5 and V-R6. -/
theorem test_increment_decrement :
    outOf (.raCc96 0 0 1) (withRa 0 0 ⟨some .rpn, some 0, some 0, none, none⟩) =
      some [.ev (.paramNumber 0 0 .rpn 0 .inc (.v7 0 1))] ∧
    outOf (.raCc97 0 0 127) (withRa 0 0 ⟨some .rpn, some 0, some 0, none, none⟩) =
      some [.ev (.paramNumber 0 0 .rpn 0 .dec (.v7 0 127))] ∧
    outOf (.raCc96 0 0 1) State.reset = some [] := by decide
/-- V-R9 and V-R10. -/
theorem test_reset_controllers :
    outOf (.raCc121 0 0 0) State.reset = some [.ev (.controlChange1 0 0 121 0)] ∧
    raOf (.raCc121 0 0 0) 0 0 (withRa 0 0 ⟨some .rpn, some 0, some 0, none, none⟩) = some RaRec.empty ∧
    raOf (.raCc121 0 0 0) 0 0 (withCfg 0x25#32 (withRa 0 0 ⟨some .rpn, some 0, some 0, none, none⟩)) =
      some ⟨some .rpn, some 0, some 0, none, none⟩ := by decide
/-- V-R2. -/
theorem test_ra_pass : outOf (.raPass 0 0 7 100) State.reset = some [.ev (.controlChange1 0 0 7 100)] := by decide

/-! ### Witnesses: every hypothesis of an obligation is met, clause by clause, at the boundaries of its ranges -/

/-- A state in the middle of everything: a note-on, a two-word packet, both kinds of SysEx on UMP, and an RPN. -/
def busy : State :=
  ((({ State.reset with
      cfg := 0x00000F3F#32
      mp := ⟨.data, some 0x91#8, 0x91#8, 1, 0x40#7, []⟩
      wf := ⟨[0x40903C00#32], 2⟩
      sysexMax := .bytes 2
      inp := [⟨0, 0, 0x7F#128⟩] }).setSx7 3 (some [1, 2])).setSx8 4 (some ⟨0x55#8, [9]⟩)).setRa 2 5
    ⟨some .rpn, some 1, some 2, some 3, none⟩

/-- EveryInstructionKeepsTheInvariant, EveryStepKeepsTheInvariant. -/
theorem witness_busy_meets_the_invariant : State.Inv busy := by
  refine ⟨by decide, (by decide : 1 ≤ 2), ⟨by decide, by decide, ?_, by decide, by decide, (by decide : 0 ≤ 2)⟩, ⟨by decide, ?_⟩,
    ?_, ?_, ?_⟩
  · intro st h
    cases h
    decide
  · intro w0 rest h
    cases h
    decide
  · intro g buf h
    change (State.setSx7 _ 3 (some [1, 2])).sx7At g = some buf at h
    rw [State.setSx7_sx7At] at h
    split at h
    · cases h
      exact (by decide : 2 ≤ 2)
    · simp [State.sx7At, State.reset, Up.reset] at h
  · intro g buf h
    change (State.setSx8 _ 4 (some ⟨0x55#8, [9]⟩)).sx8At g = some buf at h
    rw [State.setSx8_sx8At] at h
    split at h
    · cases h
      exact (by decide : 1 ≤ 2)
    · simp [State.sx8At, State.setSx7, State.reset, Up.reset] at h
  · intro g c
    change RaRec.Inv ((State.setRa _ 2 5 ⟨some .rpn, some 1, some 2, some 3, none⟩).raAt g c)
    rw [State.setRa_raAt]
    split
    · exact ⟨by decide, by decide⟩
    · rw [show State.raAt _ g c = RaRec.empty by simp [State.raAt, State.setSx7, State.setSx8, State.reset, raReset]]
      exact ⟨fun _ => rfl, by decide⟩
theorem witness_busy_steps : (nextOf (step busy)).map State.out = some [.ev (.noteOn1 15 1 0x40#7 0x7F#7)] := by decide
theorem witness_busy_exec : Answers (exec (.dataData 0x7F#7) busy) := ⟨_, rfl⟩

/-- OnlyUnselectedDataRowsAreRefused, ByteRunsItsRow: every row is selected somewhere, and not elsewhere. -/
theorem witness_selected :
    Selected (running 0xEF#8) .rs ∧ Selected State.reset .orphan ∧ Selected busy .data ∧ Selected (inSysex []) .sysex ∧
    Selected discarding .sxdiscard := ⟨⟨rfl, nofun⟩, ⟨rfl, rfl⟩, rfl, rfl, rfl⟩
theorem witness_not_selected :
    ¬ Selected State.reset .rs ∧ ¬ Selected (running 0x80#8) .orphan ∧ ¬ Selected State.reset .data ∧
    ¬ Selected discarding .sysex ∧ ¬ Selected (inSysex []) .sxdiscard := by
  simp only [Selected]
  decide
theorem witness_data_rows :
    (Instr.dataRs 0).dataRow = some .rs ∧ (Instr.dataOrphan 0).dataRow = some .orphan ∧ (Instr.dataData 0).dataRow = some .data ∧
    (Instr.dataSysex 0).dataRow = some .sysex ∧ (Instr.dataSxdiscard 0).dataRow = some .sxdiscard := by decide

/-- ItemsPerByte: bytes of both kinds that append at most one item, at the ends of their ranges. -/
theorem witness_items_per_byte :
    (0x00#8).getLsbD 7 = false ∧ (0x7F#8).getLsbD 7 = false ∧ 0xF8#8 ≤ 0xF8#8 ∧ 0xF8#8 ≤ 0xFF#8 := by decide

/-- OnlyConfigWritesCfg, PathsAreIndependent: each kind of transaction answers a next state. -/
theorem witness_transactions_answer :
    Answers (exec (.config 0x334#32) busy) ∧ Answers (exec (.byte 0x40#8) busy) ∧ Answers (exec (.word 0) busy) ∧
    Answers (exec (.packet 0x40903C00#32 [0]) busy) ∧ Answers (exec .reset busy) :=
  ⟨⟨_, rfl⟩, ⟨_, rfl⟩, ⟨_, rfl⟩, ⟨_, rfl⟩, ⟨_, rfl⟩⟩

/-- StepRunsTheNextTransaction. -/
theorem witness_step : busy.inp = [⟨0, 0, 0x7F#128⟩] ∧ State.reset.inp = [] := by decide

/-- PresentedTableWordIsRun: a data byte, where its row is selected, and a word of each other kind. -/
theorem witness_table_word :
    decodeTableWord 8 0x7F = some (.dataOrphan 0x7F#7) ∧ (Instr.dataOrphan 0x7F#7).dataRow = some .orphan ∧
    decodeTableWord 8 7 = some .tagRsvd7 ∧ (Instr.tagRsvd7).dataRow = none ∧
    decodeTableWord 8 0x79 = some (.raCc121 0 0 0) ∧ (Instr.raCc121 0 0 0).dataRow = none ∧
    decodeTableWord 8 0xFF = some .sysreset ∧ (Instr.sysreset).dataRow = none ∧
    decodeTableWord 32 0x503F0000 = some (.u5End 0 15 0 0 0 0 0) ∧ (Instr.u5End 0 15 0 0 0 0 0).dataRow = none := by decide

/-- DecodeOfEncodeIsTheInstruction. -/
theorem witness_encode :
    (Instr.u5Other 15 15 15 0xFF#8 0xFF#8 1 2 3).wellFormed = true ∧ (Instr.u5Other 15 15 15 0xFF#8 0xFF#8 1 2 3).dataRow = none ∧
    (Instr.dataSysex 127).wellFormed = true ∧ (Instr.dataSysex 127).dataRow = some .sysex ∧
    (Instr.packet 1 [2, 3, 4]).wellFormed = true := by decide

/-- EncodeOfDecodeIsTheCode, PacketRunsItsRow, SysexBuffersAreIndependent, RaRecordsAreIndependent. -/
theorem witness_packets_decode :
    decodeUmp 0xFFFFFFFF#32 [1, 2, 3] = .ok (.uF 15 0xFFFFFF#24 1 2 3) ∧
    decodeUmp 0x31110200#32 [0] = .ok (.u3Start 1 1 2 0 0) ∧ decodeUmp 0x50120580#32 [1, 2, 3] = .ok (.u5Start 0 2 5 0x80#8 1 2 3) ∧
    decodeUmp 0x40200001#32 [7] = .ok (.u4Rc 0 0 0 1 7) ∧ (0x40200001#32).extractLsb' 28 4 = 0x4#4 ∧
    decode .rs (.byte8 0x7F#8) = .ok (.dataRs 0x7F#7) := by decide
theorem witness_packets_answer :
    Answers (exec (.u3Start 1 1 2 0 0) busy) ∧ Answers (exec (.u5Start 0 2 5 0x80#8 1 2 3) busy) ∧
    Answers (exec (.u4Rc 0 0 0 1 7) busy) ∧ Answers (exec (decodeCc 2 5 38 1) busy) :=
  ⟨⟨_, rfl⟩, ⟨_, rfl⟩, ⟨_, rfl⟩, ⟨_, rfl⟩⟩
theorem witness_other_buffers :
    (1#4 ≠ (0x31110200#32).extractLsb' 24 4 ∨ (0x31110200#32).extractLsb' 28 4 ≠ 0x3#4) = False ∧
    (2#4 ≠ (0x31110200#32).extractLsb' 24 4 ∨ (0x31110200#32).extractLsb' 28 4 ≠ 0x3#4) ∧
    (1#4 ≠ (0x31110200#32).extractLsb' 24 4 ∨ (0x31110200#32).extractLsb' 28 4 ≠ 0x5#4) := by decide

/-- WrongLengthPacketIsDropped: one word too few and one too many. -/
theorem witness_wrong_length :
    ([] : List Word).length + 1 ≠ wc ((0x40904000#32).extractLsb' 28 4) ∧
    ([0] : List Word).length + 1 ≠ wc ((0x20904060#32).extractLsb' 28 4) := by decide

/-- WordFramer, its four cases. -/
theorem witness_word_framer :
    State.reset.wf.buf = [] ∧ decodeUmp 0x20904060#32 [] = .ok (.u2Noteon 0 0 0x40#8 0x60#8) ∧
    wc ((0x40904000#32).extractLsb' 28 4) ≠ 1 ∧
    ({ State.reset with wf := ⟨[0x50037701#32, 0], 4⟩ } : State).wf.buf = 0x50037701#32 :: [0] ∧ ([0] : List Word).length + 2 ≠ 4 ∧
    busy.wf.buf = 0x40903C00#32 :: [] ∧ ([] : List Word).length + 2 = busy.wf.need ∧
    decodeUmp 0x40903C00#32 [7] = .ok (.u4Noteon 0 0 0x3C#8 0 7) := by decide

/-- WordPortEqualsPacketPort: packets of one to four words. -/
theorem witness_word_port :
    State.reset.wf = ⟨[], 0⟩ ∧ ([] : List Word).length + 1 = wc ((0x20904060#32).extractLsb' 28 4) ∧
    ([0] : List Word).length + 1 = wc ((0x40904060#32).extractLsb' 28 4) ∧
    ([0, 0] : List Word).length + 1 = wc ((0xB0000000#32).extractLsb' 28 4) ∧
    ([0, 0, 0] : List Word).length + 1 = wc ((0x50037701#32).extractLsb' 28 4) := by decide

/-- OrphanDataByte, RunningStatusDataByte: statuses at the ends of each range. -/
theorem witness_idle :
    State.reset.mp.mode = .idle ∧ State.reset.mp.rs = none ∧
    (∀ st ∈ [0x80#8, 0xBF#8, 0xC0#8, 0xCF#8, 0xD0#8, 0xDF#8, 0xE0#8, 0xEF#8],
      (running st).mp.mode = .idle ∧ (running st).mp.rs = some st ∧ 0x80#8 ≤ st ∧ st ≤ 0xEF#8) := by decide

/-- DataByteOfAMessage: the first of two bytes, the last of one and of two, and a control change. -/
theorem witness_data_byte :
    (withMp ⟨.data, some 0x90#8, 0x90#8, 0, 0, []⟩).mp.k + 1 ≠ need 0x90#8 ∧ (withMp ⟨.data, some 0x90#8, 0x90#8, 0, 0, []⟩).mp.mode = .data ∧
    (withMp ⟨.data, some 0xC0#8, 0xC0#8, 0, 0, []⟩).mp.k + 1 = need 0xC0#8 ∧
    messageEvent 0x35#32 0xC0#8 5 0 = some (.programChange1 0 0 5) ∧ (0xC0#8).extractLsb' 4 4 ≠ 0xB#4 ∧
    (half 0x90#8 0x40#7).mp.k + 1 = need 0x90#8 ∧ messageEvent 0x35#32 0x90#8 0x40#7 0x7F#7 = some (.noteOn1 0 0 0x40#7 0x7F#7) ∧
    (half 0xB2#8 101).mp.k = 1 ∧ (half 0xB2#8 101).mp.cur = (0xB#4 ++ 2#4 : Byte) := by decide

/-- SysexDataByte: no limit, one byte below the limit, at the limit, and discarding. -/
theorem witness_sysex_data :
    (inSysex []).mp.mode = .sysex ∧ (inSysex []).sysexMax ≠ .bytes (inSysex []).mp.sx.length ∧
    (capped 1 (inSysex [])).sysexMax ≠ .bytes (inSysex []).mp.sx.length ∧
    (capped 1 (inSysex [5])).sysexMax = .bytes 1 ∧ (capped 1 (inSysex [5])).mp.sx.length = 1 ∧ discarding.mp.mode = .sxdiscard := by
  decide

/-- SystemCommonWithData, SystemCommonWithoutData. -/
theorem witness_system_common :
    State.reset.cfg.getLsbD 5 = true ∧ (withCfg 0x15#32 State.reset).cfg.getLsbD 5 = false ∧ (inSysex [1]).mp.mode = .sysex ∧
    discarding.mp.mode = .sxdiscard ∧ State.reset.mp.mode = .idle ∧ busy.mp.mode = .data := by decide

/-- RecoveryFromAnyState: two data bytes and one, a control change and another message, at the ends of the ranges. -/
theorem witness_recovery :
    0x80#8 ≤ 0x80#8 ∧ 0xEF#8 ≤ 0xEF#8 ∧ 0x80#8 ≤ 0xB0#8 ∧ 0xB0#8 ≤ 0xEF#8 ∧ (∀ b ∈ [0xF8#8, 0xFF#8], 0xF8#8 ≤ b) ∧
    need 0x80#8 = 2 ∧ need 0xDF#8 = 1 ∧ (0x80#8).extractLsb' 4 4 ≠ 0xB#4 ∧ (0xB0#8).extractLsb' 4 4 = 0xB#4 := by decide

/-- ConfigInTheMiddleOfAMessage: a last data byte of two (`busy`) and of one, a first of two, an open SysEx, a control
change, bus-select, and both values of VEL0_OFF. -/
theorem witness_config_in_the_middle :
    busy.mp.mode = .data ∧ busy.mp.k + 1 = need busy.mp.cur ∧ busy.mp.cur = (0x9#4 ++ 1#4 : Byte) ∧ busy.mp.k = 1 ∧
    (⟨.data, none, 0xF5#8, 0, 0, []⟩ : Mp).k + 1 = need 0xF5#8 ∧ need 0xBF#8 = 2 ∧ need 0xF2#8 = 2 ∧
    ({ State.reset with mp := ⟨.sysex, none, 0, 0, 0, [1]⟩ } : State).mp.mode = .sysex ∧
    (0xBF#8).extractLsb' 4 4 = 0xB#4 ∧ (0x35#32).getLsbD 0 = true ∧ (0x34#32).getLsbD 0 = false := by decide

/-- ControlChangeInUmp: bit 7 in either byte, and in neither. -/
theorem witness_control_change :
    (0x80#8).getLsbD 7 = true ∧ (0xFF#8).getLsbD 7 = true ∧ (0x00#8).getLsbD 7 = false ∧ (0x7F#8).getLsbD 7 = false := by decide

/-- Sysex7Checks: numBytes just over 6, and bit 7 in the last valid byte. -/
theorem witness_sysex7_checks :
    6 < (7#4).toNat ∧ ∃ b ∈ [1#8, 2#8, (0x00000080#32).extractLsb' 24 8, (0x00000080#32).extractLsb' 16 8,
      (0x00000080#32).extractLsb' 8 8, (0x00000080#32).extractLsb' 0 8].take (6#4).toNat, b.getLsbD 7 = true := by decide

/-- Sysex7CompleteAndStart, Sysex7ContinueAndEnd: payloads of 0 and 6 bytes. -/
theorem witness_sysex7_payload :
    Sysex7Payload 0 0xFF#8 0xFF#8 0xFFFFFFFF#32 [] ∧ Sysex7Payload 6 1 2 0x03040506#32 [1, 2, 3, 4, 5, 6] := by
  unfold Sysex7Payload
  decide
/-- Within the limit at the limit, and one byte over it; an open buffer and none. -/
theorem witness_sysex_limits :
    within (.bytes 6) 6 ∧ within .inf 6 ∧ (capped 5 State.reset).sysexMax = .bytes 5 ∧ 5 < 6 ∧
    busy.sx7At 3 = some [1, 2] ∧ busy.sx7At 0 = none ∧ busy.sysexMax = .bytes 2 ∧ within busy.sysexMax (2 + 0) ∧ 2 < 2 + 1 ∧
    busy.sx8At 4 = some ⟨0x55#8, [9]⟩ ∧ busy.sx8At 0 = none ∧ within busy.sysexMax (1 + 1) ∧ 2 < 1 + 2 ∧ 0x54#8 ≠ 0x55#8 := by
  refine ⟨?_, trivial, ?_⟩
  · show 6 ≤ 6
    decide
  refine ⟨by decide, by decide, by decide, by decide, by decide, ?_, by decide, by decide, by decide, ?_, by decide, by decide⟩
  · show 2 + 0 ≤ 2
    decide
  · show 1 + 1 ≤ 2
    decide

/-- Sysex8Checks, Sysex8CompleteAndStart, Sysex8ContinueAndEnd: numBytes 0 and 15; 1 and 14. -/
theorem witness_sysex8_payload :
    ((0#4).toNat = 0 ∧ 14 < (15#4).toNat) ∧ Sysex8Payload 1 0xFF#8 0 0 0 [] ∧ Sysex8Payload 3 1 0x02000000#32 0 0 [1, 2] ∧
    Sysex8Payload 14 1 0x02030405#32 0x06070809#32 0x0A0B0C0D#32 [1, 2, 3, 4, 5, 6, 7, 8, 9, 10, 11, 12, 13] := by
  unfold Sysex8Payload
  decide

/-- DataEntryControllers, IncrementAndDecrement: a complete number with its data MSB, and each way it is not complete. -/
theorem witness_numbers :
    (busy.raAt 2 5).kind = some .rpn ∧ (busy.raAt 2 5).nMSB = some 1 ∧ (busy.raAt 2 5).nLSB = some 2 ∧ (busy.raAt 2 5).dMSB = some 3 ∧
    (busy.raAt 0 0).kind = none ∧ (busy.raAt 0 0).dMSB = none ∧
    ((withRa 1 1 ⟨some .nrpn, some 4, none, none, none⟩).raAt 1 1).nLSB = none ∧
    ((withRa 1 1 ⟨some .nrpn, none, some 4, none, none⟩).raAt 1 1).nMSB = none := by decide

/-- PassedThroughControllers: both values of CC121_RESETS_RA. -/
theorem witness_reset_controllers :
    State.reset.cfg.getLsbD 4 = true ∧ (withCfg 0x25#32 State.reset).cfg.getLsbD 4 = false := by decide

/-- RaRecordsAreIndependent: another group, another channel. -/
theorem witness_other_records : ¬ ((3 : U4) = 2 ∧ (5 : U4) = 5) ∧ ¬ ((2 : U4) = 2 ∧ (6 : U4) = 5) := by decide

/-- ParameterAssembly. -/
theorem witness_parameter_assembly : (126 : U7) ≠ 127 ∧ State.reset.cfg.getLsbD 1 = false := by decide

/-- StartOfRunPremises. -/
theorem witness_configured : Configured 0xFFFFFFFF#32 { State.reset with cfg := 0xFFFFFFFF#32 &&& Config.cfgMask } :=
  ⟨State.reset, ⟨⟨rfl, rfl, rfl, rfl, rfl⟩, rfl⟩, rfl⟩

end Sys2Proof.Tests
end

section
/-! SUPPORT. What every instruction keeps (10_state.md R27, R28, R33, R36, R40, R41, R61), as one relation between the
state before and the state after. Each named operation has a rule for it, and the rows are put together from the rules. -/

namespace Sys2Proof.Machine

/-! ### The invariant, part by part -/

theorem within_zero (m : SysexMax) : within m 0 := by
  cases m <;> simp [within]

/-- One more byte is within SYSEX_MAX where the payload has not reached it (R144). -/
theorem within_succ {m : SysexMax} {len : Nat} (h : within m len) (hr : reachesMax m len ≠ true) : within m (len + 1) := by
  cases m with
  | inf => trivial
  | bytes n =>
    have h : len ≤ n := h
    have hr : len ≠ n := by simpa [reachesMax] using hr
    show len + 1 ≤ n
    omega

theorem within_of_not_exceedsMax {m : SysexMax} {len : Nat} (h : ¬ exceedsMax m len = true) : within m len :=
  Classical.not_not.1 fun hn => h ((exceedsMax_iff m len).2 hn)

theorem wc_pos (mt : U4) : 1 ≤ wc mt := by
  unfold wc
  split <;> decide

/-- Every channel status collects data bytes (R86). -/
theorem need_pos_of_channel {st : Byte} (hlo : 0x80#8 ≤ st) (hhi : st ≤ 0xEF#8) : 1 ≤ need st := by
  have hlo : 0x80 ≤ st.toNat := hlo
  have hhi : st.toNat ≤ 0xEF := hhi
  have hq : 8 ≤ st.toNat / 16 ∧ st.toNat / 16 ≤ 14 := by omega
  unfold need
  generalize st.toNat / 16 = n at hq ⊢
  obtain ⟨h8, h14⟩ := hq
  interval_cases n <;> simp

theorem channel_range {nib : U4} (ch : U4) (hlo : 0x8#4 ≤ nib) (hhi : nib ≤ 0xE#4) :
    0x80#8 ≤ (nib ++ ch : Byte) ∧ (nib ++ ch : Byte) ≤ 0xEF#8 := by
  have hlo : 8 ≤ nib.toNat := hlo
  have hhi : nib.toNat ≤ 14 := hhi
  have hch := ch.isLt
  rw [BitVec.le_def, BitVec.le_def, channel_toNat]
  constructor <;> simp <;> omega

namespace Mp.Inv
variable {m : SysexMax} {p : Mp}

theorem reset : Mp.Inv m Mp.reset :=
  ⟨nofun, fun _ => rfl, nofun, Nat.zero_le 1, nofun, within_zero m⟩

/-- A message, or a discarded SysEx, comes to its end. -/
theorem idle (h : Mp.Inv m p) (hm : p.mode ≠ .sysex) {k : Nat} (hk : k ≤ 1) :
    Mp.Inv m { p with mode := .idle, k := k } :=
  ⟨nofun, fun _ => h.sx hm, h.rs, hk, nofun, h.max⟩

/-- A SysEx is left, its payload dropped. -/
theorem dropSysex (h : Mp.Inv m p) {mode : Mode} (hm : mode ≠ .data) : Mp.Inv m { p with mode := mode, sx := [] } :=
  ⟨fun he => absurd he hm, fun _ => rfl, h.rs, h.k, fun he => absurd he hm, within_zero m⟩

/-- A message is in progress: `k` of its data bytes are there, and a channel message is that of the running status. -/
theorem inMessage (h : Mp.Inv m p) (hm : p.mode ≠ .sysex) {rs : Option Byte} {st : Byte} {k : Nat} {d0 : U7} (hk : k ≤ 1)
    (hneed : k < need st) (hrs : ∀ x, rs = some x → 0x80#8 ≤ x ∧ x ≤ 0xEF#8) (hcur : st ≤ 0xEF#8 → rs = some st) :
    Mp.Inv m ⟨.data, rs, st, k, d0, p.sx⟩ :=
  ⟨fun _ => ⟨hneed, Nat.lt_of_le_of_lt (Nat.zero_le k) hneed⟩, fun _ => h.sx hm, hrs, hk, fun _ => hcur, h.max⟩

end Mp.Inv

namespace RaRec.Inv
variable {r : RaRec}

theorem emptyRec : RaRec.Inv RaRec.empty := ⟨fun _ => rfl, nofun⟩

/-- `storeNumber` never leaves the null number, and a record it leaves with no kind is the empty one (R313). -/
theorem storeNumber (k : ParamKind) (half : Half) (v : U7) : RaRec.Inv (r.storeNumber k half v) := by
  have drop {q : RaRec} (hq : q.kind ≠ none) : RaRec.Inv q.dropNull := by
    unfold RaRec.dropNull
    split
    · exact emptyRec
    · exact ⟨fun h => absurd h hq, ‹_›⟩
  cases half <;> exact drop nofun

/-- Data entry changes no number (R318, R319). -/
theorem setData (h : RaRec.Inv r) {n : ParamKind × U14} (hn : r.number = some n) (dMSB dLSB : Option U7) :
    RaRec.Inv { r with dMSB := dMSB, dLSB := dLSB } := by
  refine ⟨fun hk => ?_, h.null⟩
  simp [RaRec.number, show r.kind = none from hk] at hn

end RaRec.Inv

/-! ### The relation, and one rule per operation -/

/-- `t` is a state an instruction other than CONFIG may leave after `s`: CFG and the model's own two fields are those of
`s` (R36, R41), and the invariant is kept. -/
structure Kept (s t : State) : Prop where
  cfg : t.cfg = s.cfg
  sysexMax : t.sysexMax = s.sysexMax
  inp : t.inp = s.inp
  inv : State.Inv s → State.Inv t

namespace Kept
variable {s t u : State}

theorem refl (s : State) : Kept s s := ⟨rfl, rfl, rfl, id⟩

theorem trans (h : Kept s t) (h' : Kept t u) : Kept s u :=
  ⟨h'.cfg.trans h.cfg, h'.sysexMax.trans h.sysexMax, h'.inp.trans h.inp, h'.inv ∘ h.inv⟩

theorem appended (s : State) (items : List Item) : Kept s (appended s items) :=
  ⟨rfl, rfl, rfl, fun h => ⟨h.cfg, h.max, h.mp, h.wf, h.sx7, h.sx8, h.ra⟩⟩

theorem emit (s : State) (e : Event) : Kept s (s.emit e) := appended s _

theorem diag (s : State) (c : DiagCode) (info : Word) : Kept s (s.diag c info) := appended s _

theorem overflowDiag (s : State) : Kept s s.overflowDiag := appended s _

theorem setMp {p : Mp} (hp : State.Inv s → Mp.Inv s.sysexMax p) : Kept s { s with mp := p } :=
  ⟨rfl, rfl, rfl, fun h => ⟨h.cfg, h.max, hp h, h.wf, h.sx7, h.sx8, h.ra⟩⟩

theorem setWf {w : Wf} (hw : State.Inv s → Wf.Inv w) : Kept s { s with wf := w } :=
  ⟨rfl, rfl, rfl, fun h => ⟨h.cfg, h.max, h.mp, hw h, h.sx7, h.sx8, h.ra⟩⟩

theorem setSx7 (g : U4) {b : Option (List U7)} (hb : ∀ buf, b = some buf → within s.sysexMax buf.length) :
    Kept s (s.setSx7 g b) := by
  refine ⟨rfl, rfl, rfl, fun h => ⟨h.cfg, h.max, h.mp, h.wf, fun i buf hi => ?_, h.sx8, h.ra⟩⟩
  rw [State.setSx7_sx7At] at hi
  split at hi
  · exact hb buf hi
  · exact h.sx7 i buf hi

theorem setSx8 (g : U4) {b : Option Sx8} (hb : ∀ buf, b = some buf → within s.sysexMax buf.payload.length) :
    Kept s (s.setSx8 g b) := by
  refine ⟨rfl, rfl, rfl, fun h => ⟨h.cfg, h.max, h.mp, h.wf, h.sx7, fun i buf hi => ?_, h.ra⟩⟩
  rw [State.setSx8_sx8At] at hi
  split at hi
  · exact hb buf hi
  · exact h.sx8 i buf hi

theorem setRa (g ch : U4) {r : RaRec} (hr : State.Inv s → RaRec.Inv r) : Kept s (s.setRa g ch r) := by
  refine ⟨rfl, rfl, rfl, fun h => ⟨h.cfg, h.max, h.mp, h.wf, h.sx7, h.sx8, fun i c => ?_⟩⟩
  rw [State.setRa_raAt]
  split
  · exact hr h
  · exact h.ra i c

/-! The RA (R310 to R323). -/

theorem raStore (s : State) (g ch : U4) (k : ParamKind) (half : Half) (v : U7) : Kept s (s.raStore g ch k half v) :=
  setRa g ch fun _ => RaRec.Inv.storeNumber k half v

theorem raEmit (s : State) (g ch : U4) (op : ParamOp) (val : ParamValue) : Kept s (s.raEmit g ch op val) := by
  unfold State.raEmit
  split
  · exact emit s _
  · exact refl s

theorem raDataMsb (s : State) (g ch : U4) (v : U7) : Kept s (s.raDataMsb g ch v) := by
  unfold State.raDataMsb
  split
  · exact refl s
  · rename_i hn
    have stored : Kept s (s.setRa g ch { s.raAt g ch with dMSB := some v, dLSB := none }) :=
      setRa g ch fun h => (h.ra g ch).setData hn _ _
    simp only
    split
    · exact stored.trans (raEmit _ _ _ _ _)
    · exact stored

theorem raDataLsb (s : State) (g ch : U4) (v : U7) : Kept s (s.raDataLsb g ch v) := by
  unfold State.raDataLsb
  split
  · rename_i hn _
    exact (setRa g ch fun h => (h.ra g ch).setData hn _ _).trans (raEmit _ _ _ _ _)
  · exact refl s

theorem raResetControllers (s : State) (g ch : U4) (v : U7) : Kept s (s.raResetControllers g ch v) := by
  simp only [State.raResetControllers]
  split
  · exact (setRa g ch fun _ => RaRec.Inv.emptyRec).trans (emit _ _)
  · exact emit s _

theorem controlChange (s : State) (g ch : U4) (ctrl v : U7) : Kept s (s.controlChange g ch ctrl v) := by
  unfold State.controlChange
  split
  · exact raStore s _ _ _ _ _
  · exact raStore s _ _ _ _ _
  · exact raStore s _ _ _ _ _
  · exact raStore s _ _ _ _ _
  · exact raDataMsb s _ _ _
  · exact raDataLsb s _ _ _
  · exact raEmit s _ _ _ _
  · exact raEmit s _ _ _ _
  · exact raResetControllers s _ _ _
  · exact emit s _

theorem deliver (s : State) (e : Event) : Kept s (s.deliver e) := by
  unfold State.deliver
  split
  · exact controlChange s _ _ _ _
  · exact emit s _

theorem deliverChecked (s : State) (w0 : Word) (bad : Bool) (e : Event) : Kept s (s.deliverChecked w0 bad e) := by
  unfold State.deliverChecked
  split
  · exact diag s _ _
  · exact deliver s e

theorem complete (s : State) (st : Byte) (d1 d2 : U7) : Kept s (s.complete st d1 d2) := by
  unfold State.complete
  split
  · exact deliver s _
  · exact refl s

end Kept
end Sys2Proof.Machine
end

section
/-! SUPPORT. What the MIDI-1 parser, the SysEx buffers, the packets and the word framer keep, and with them every
instruction (10_state.md R27, R28, R36, R41, R61). -/

namespace Sys2Proof.Machine

/-! ### The MIDI-1 parser (R140 to R170) -/

theorem State.complete_mp (s : State) (st : Byte) (d1 d2 : U7) : (s.complete st d1 d2).mp = s.mp := by
  obtain ⟨g, ch, r, items, _, h⟩ := s.complete_spec st d1 d2
  rw [h]
  rfl

/-- Only 0xF7 finds a SysEx still open after preempt (R147). -/
theorem State.preempt_mode (s : State) {b : Byte} (hb : b ≠ 0xF7#8) : (s.preempt b).mp.mode = .idle := by
  rw [s.preempt_eq]
  show preemptMode s b = .idle
  unfold preemptMode
  split
  · rfl
  · rfl
  · exact if_neg hb
  · exact if_neg hb

/-- Preempt ends the message in progress (R147). -/
theorem Mp.Inv.afterPreempt {m : SysexMax} {s : State} (h : Mp.Inv m s.mp) (b : Byte) :
    Mp.Inv m (afterPreempt s b).mp := by
  have hmode : preemptMode s b ≠ .data := by
    unfold preemptMode
    split
    · nofun
    · nofun
    · split <;> nofun
    · split <;> nofun
  refine ⟨fun he => absurd he hmode, fun he => ?_, fun st hst => ?_, ?_, fun he => absurd he hmode, ?_⟩
  · show (if s.mp.mode = .sysex ∧ b ≠ 0xF7#8 then [] else s.mp.sx) = []
    split
    · rfl
    · rename_i hn
      refine h.sx fun hm => he ?_
      have hb : b = 0xF7#8 := by simpa [hm] using hn
      simp [Machine.afterPreempt, preemptMode, hm, hb]
  · simp only [Machine.afterPreempt] at hst
    split at hst
    · cases hst
    · exact h.rs st hst
  · show (if s.mp.mode = .data then 0 else s.mp.k) ≤ 1
    split
    · exact Nat.zero_le 1
    · exact h.k
  · show within m (if s.mp.mode = .sysex ∧ b ≠ 0xF7#8 then [] else s.mp.sx).length
    split
    · exact within_zero m
    · exact h.max

namespace Kept
variable (s : State)

theorem preempt (b : Byte) : Kept s (s.preempt b) := by
  rw [s.preempt_eq]
  exact (setMp fun h => h.mp.afterPreempt b).trans (appended _ (preemptItems s b))

/-- A channel status byte: the message is that of the running status, and its data bytes are still to come. -/
theorem startChannel {st : Byte} (hlo : 0x80#8 ≤ st) (hhi : st ≤ 0xEF#8) : Kept s (s.startChannel st) := by
  have hb : st ≠ 0xF7#8 := by rintro rfl; exact absurd hhi (by decide)
  have hm : (s.preempt st).mp.mode ≠ .sysex := by rw [s.preempt_mode hb]; nofun
  have running : ∀ x, some st = some x → 0x80#8 ≤ x ∧ x ≤ 0xEF#8 := by
    rintro _ ⟨⟩
    exact ⟨hlo, hhi⟩
  exact (preempt s st).trans (setMp fun h =>
    h.mp.inMessage hm (Nat.zero_le 1) (need_pos_of_channel hlo hhi) running fun _ => rfl)

theorem startChannel_nib (ch : U4) {nib : U4} (hlo : 0x8#4 ≤ nib) (hhi : nib ≤ 0xE#4) :
    Kept s (s.startChannel (nib ++ ch)) :=
  startChannel s (channel_range ch hlo hhi).1 (channel_range ch hlo hhi).2

/-- A system-common status with data bytes leaves running status as preempt does (R156). -/
theorem awaitData {st : Byte} (hst : 0xEF#8 < st) (hneed : 0 < need st) (hb : st ≠ 0xF7#8) :
    Kept s ((s.preempt st).awaitData st) := by
  have hm : (s.preempt st).mp.mode ≠ .sysex := by rw [s.preempt_mode hb]; nofun
  exact (preempt s st).trans
    (setMp fun h => h.mp.inMessage hm (Nat.zero_le 1) hneed h.mp.rs fun hle => absurd hst (BitVec.not_lt.2 hle))

theorem sysexStart : Kept s s.sysexStart :=
  (preempt s _).trans (setMp fun h => h.mp.dropSysex nofun)

theorem undefF4 : Kept s s.undefF4 := (preempt s _).trans (diag _ _ _)

theorem busselF5 : Kept s s.busselF5 := by
  simp only [State.busselF5]
  split
  · exact awaitData s (by decide) (by decide) (by decide)
  · exact (preempt s _).trans (diag _ _ _)

theorem tunereq : Kept s s.tunereq := (preempt s 0xF6#8).trans (deliver _ (.tuneRequest (s.preempt 0xF6#8).group))

theorem eox : Kept s s.eox := by
  refine (preempt s 0xF7#8).trans ?_
  simp only [State.eox]
  generalize s.preempt 0xF7#8 = u
  split
  · exact (deliver u _).trans (setMp fun h => h.mp.dropSysex nofun)
  · rename_i hm
    exact setMp fun h => h.mp.idle (by rw [hm]; nofun) h.mp.k
  · exact diag u _ _
  · exact diag u _ _

/-! Data bytes (R141 to R145), in the mode that selects each. -/

variable {s}

theorem dataRunning (hm : s.mp.mode = .idle) {st : Byte} (hst : s.mp.rs = some st) (v : U7) :
    Kept s (s.dataRunning st v) := by
  unfold State.dataRunning
  split
  · exact complete s st v _
  · rename_i h1
    refine setMp fun h => ?_
    obtain ⟨hlo, hhi⟩ := h.mp.rs st hst
    have hpos := need_pos_of_channel hlo hhi
    exact h.mp.inMessage (by rw [hm]; nofun) (Nat.le_refl 1) (by omega) h.mp.rs fun _ => hst

theorem dataInMessage (hm : s.mp.mode = .data) (v : U7) : Kept s (s.dataInMessage v) := by
  have hns : s.mp.mode ≠ .sysex := by rw [hm]; nofun
  have finish (d1 d2 : U7) : Kept s { s.complete s.mp.cur d1 d2 with
      mp := { (s.complete s.mp.cur d1 d2).mp with mode := .idle, k := 0 } } :=
    (complete s _ _ _).trans (setMp fun h => h.mp.idle (by rw [s.complete_mp]; exact hns) (Nat.zero_le 1))
  simp only [State.dataInMessage]
  split
  · split <;> exact finish _ _
  · rename_i hlast
    refine setMp fun h => ?_
    obtain ⟨hk, hpos⟩ := h.mp.data hm
    rw [hm]
    exact h.mp.inMessage hns (Nat.le_refl 1) (by omega) h.mp.rs (h.mp.cur hm)

theorem dataInSysex (hm : s.mp.mode = .sysex) (v : U7) : Kept s (s.dataInSysex v) := by
  simp only [State.dataInSysex]
  split
  · exact (overflowDiag s).trans (setMp fun h => h.mp.dropSysex nofun)
  · rename_i hmax
    refine setMp fun h => ?_
    have notData : s.mp.mode ≠ .data := by rw [hm]; nofun
    exact ⟨fun he => absurd he notData, fun he => absurd hm he, h.mp.rs, h.mp.k, fun he => absurd he notData, by
      simpa using within_succ h.mp.max hmax⟩

/-! ### SysEx buffers (R271 to R274, R281 to R284) -/

variable (s)

theorem sx7Complete (g : U4) (bytes : List U7) : Kept s (s.sx7Complete g bytes) := by
  unfold State.sx7Complete
  split
  · exact overflowDiag s
  · exact deliver s _

theorem closeSx7 (g : U4) : Kept s (s.setSx7 g none) := setSx7 g nofun

theorem openSx7 (g : U4) {buf : List U7} (h : ¬ exceedsMax s.sysexMax buf.length = true) :
    Kept s (s.setSx7 g (some buf)) := by
  refine setSx7 g ?_
  rintro _ ⟨⟩
  exact within_of_not_exceedsMax h

theorem sx7Start (g : U4) (bytes : List U7) : Kept s (s.sx7Start g bytes) := by
  refine (closeSx7 s g).trans ?_
  simp only [State.sx7Start]
  generalize s.setSx7 g none = u
  split
  · exact overflowDiag u
  · exact openSx7 u g ‹_›

theorem sx7Continue (w0 : Word) (g : U4) (bytes : List U7) : Kept s (s.sx7Continue w0 g bytes) := by
  unfold State.sx7Continue
  split
  · exact diag s _ _
  · split
    · exact (overflowDiag s).trans (closeSx7 _ g)
    · exact openSx7 s g (by rwa [List.length_append])

theorem sx7End (w0 : Word) (g : U4) (bytes : List U7) : Kept s (s.sx7End w0 g bytes) := by
  unfold State.sx7End
  split
  · exact diag s _ _
  · refine (closeSx7 s g).trans ?_
    simp only
    split
    · exact overflowDiag _
    · exact deliver _ _

theorem sx8Complete (g : U4) (stream : Byte) (bytes : List Byte) : Kept s (s.sx8Complete g stream bytes) := by
  unfold State.sx8Complete
  split
  · exact overflowDiag s
  · exact deliver s _

theorem closeSx8 (g : U4) : Kept s (s.setSx8 g none) := setSx8 g nofun

theorem openSx8 (g : U4) {buf : Sx8} (h : ¬ exceedsMax s.sysexMax buf.payload.length = true) :
    Kept s (s.setSx8 g (some buf)) := by
  refine setSx8 g ?_
  rintro _ ⟨⟩
  exact within_of_not_exceedsMax h

theorem sx8Start (g : U4) (stream : Byte) (bytes : List Byte) : Kept s (s.sx8Start g stream bytes) := by
  refine (closeSx8 s g).trans ?_
  simp only [State.sx8Start]
  generalize s.setSx8 g none = u
  split
  · exact overflowDiag u
  · exact openSx8 u g ‹_›

theorem sx8Continue (w0 : Word) (g : U4) (stream : Byte) (bytes : List Byte) :
    Kept s (s.sx8Continue w0 g stream bytes) := by
  unfold State.sx8Continue
  split
  · exact diag s _ _
  · split
    · exact diag s _ _
    · split
      · exact (overflowDiag s).trans (closeSx8 _ g)
      · exact openSx8 s g (by rwa [List.length_append])

theorem sx8End (w0 : Word) (g : U4) (stream : Byte) (bytes : List Byte) : Kept s (s.sx8End w0 g stream bytes) := by
  unfold State.sx8End
  split
  · exact diag s _ _
  · split
    · exact diag s _ _
    · refine (closeSx8 s g).trans ?_
      simp only
      split
      · exact overflowDiag _
      · exact deliver _ _

theorem reset : Kept s { s with mp := Mp.reset, wf := Wf.reset, up := Up.reset, ra := raReset } := by
  refine ⟨rfl, rfl, rfl, fun h => ⟨h.cfg, h.max, Mp.Inv.reset, ⟨fun _ => rfl, nofun⟩, ?_, ?_, ?_⟩⟩
  · simp [State.sx7At]
  · simp [State.sx8At]
  · intro g c
    rw [State.raAt, raReset_at]
    exact RaRec.Inv.emptyRec

end Kept

/-! ### The rows -/

/-- Whatever next state `r` answers is `Kept` from `s`. -/
def AnswersKept (s : State) (r : Result) : Prop := ∀ t, r = .next t → Kept s t

theorem AnswersKept.next {s t : State} (h : Kept s t) : AnswersKept s (.next t) := by
  rintro _ ⟨⟩
  exact h

theorem AnswersKept.refused {s : State} {r : Refusal} : AnswersKept s (.refused r) := nofun

/-- Is the code of the instruction a transaction (R80)? The other instructions are the rows of the three inner formats. -/
def isTransaction (i : Instr) : Bool :=
  match encode i with
  | .txn _ => true
  | _ => false

theorem decodeByte_not_transaction (sel : DataRow) (b : Byte) : isTransaction (decodeByte sel b) = false := by
  have system (n : U4) : isTransaction (decodeSystem n) = false := by
    unfold decodeSystem
    split <;> rfl
  unfold decodeByte
  split
  case h_8 => exact system _
  case h_9 => cases sel <;> rfl
  all_goals rfl

theorem umpRow_not_transaction (w0 w1 w2 w3 : Word) : isTransaction (umpRow w0 w1 w2 w3) = false := by
  unfold umpRow
  split
  · unfold decodeU0; split <;> rfl
  · unfold decodeU1; split <;> rfl
  · unfold decodeU2; split <;> rfl
  · unfold decodeU3; split <;> rfl
  · unfold decodeU4; split <;> rfl
  · unfold decodeU5; split <;> rfl
  all_goals rfl

/-- Every row of a byte, a packet or a controller. -/
theorem exec_row_kept (s : State) {i : Instr} (hi : isTransaction i = false) : AnswersKept s (exec i s) := by
  cases i with
  | byte | word | packet | reset | config | tagRsvd5 | tagRsvd6 | tagRsvd7 => cases hi
  | dataRs v =>
    simp only [exec, execDataRs]
    split
    · exact .next (.dataRunning ‹_› ‹_› v)
    · exact .refused
  | dataOrphan v =>
    simp only [exec, execDataOrphan]
    split
    · exact .next (.diag s _ _)
    · exact .refused
  | dataData v =>
    simp only [exec, execDataData]
    split
    · exact .next (.dataInMessage ‹_› v)
    · exact .refused
  | dataSysex v =>
    simp only [exec, execDataSysex]
    split
    · exact .next (.dataInSysex ‹_› v)
    · exact .refused
  | dataSxdiscard =>
    simp only [exec, execDataSxdiscard]
    split
    · exact .next (.refl s)
    · exact .refused
  | noteoff ch | noteon ch | polypress ch | cc ch | progchg ch | chanpress ch | pitchbend ch =>
    exact .next (.startChannel_nib s ch (by decide) (by decide))
  | mtcQf | songpos | songsel => exact .next (.awaitData s (by decide) (by decide) (by decide))
  | sysexStart => exact .next (.sysexStart s)
  | undefF4 => exact .next (.undefF4 s)
  | busselF5 => exact .next (.busselF5 s)
  | tunereq => exact .next (.tunereq s)
  | eox => exact .next (.eox s)
  | clock | rtStart | rtContinue | rtStop | actsense | sysreset | u0Noop | u0Jrclock | u0Jrts | u1Tunereq | u1Clock
  | u1Start | u1Continue | u1Stop | u1Actsense | u1Sysreset | u4Chanpress | u4Pitchbend => exact .next (.deliver s _)
  | undefF9 | undefFd | u0Other | u1Other | u2Other07 | u2OtherF | u3Other | u4Op7 | u5Other | u6 | u7 | u8 | u9 | uA | uB
  | uC | uD | uE | uF => exact .next (.diag s _ _)
  | u1MtcQf | u1Songpos | u1Songsel | u2Noteoff | u2Noteon | u2Polypress | u2Cc | u2Progchg | u2Chanpress | u2Pitchbend
  | u4Pnrc | u4Pnac | u4Rc | u4Ac | u4Rrc | u4Rac | u4Pnpb | u4Noteoff | u4Noteon | u4Polypress | u4Cc | u4Progchg
  | u4Pnmgmt => exact .next (.deliverChecked s _ _ _)
  | u1Bussel =>
    simp only [exec, execU1Bussel]
    split
    · exact .next (.deliverChecked s _ _ _)
    · exact .next (.diag s _ _)
  | u3Complete =>
    simp only [exec, execU3Complete]
    split
    · exact .next (.diag s _ _)
    · exact .next (.sx7Complete s _ _)
  | u3Start =>
    simp only [exec, execU3Start]
    split
    · exact .next (.diag s _ _)
    · exact .next (.sx7Start s _ _)
  | u3Continue =>
    simp only [exec, execU3Continue]
    split
    · exact .next (.diag s _ _)
    · exact .next (.sx7Continue s _ _ _)
  | u3End =>
    simp only [exec, execU3End]
    split
    · exact .next (.diag s _ _)
    · exact .next (.sx7End s _ _ _)
  | u5Complete =>
    simp only [exec, execU5Complete]
    split
    · exact .next (.diag s _ _)
    · exact .next (.sx8Complete s _ _ _)
  | u5Start =>
    simp only [exec, execU5Start]
    split
    · exact .next (.diag s _ _)
    · exact .next (.sx8Start s _ _ _)
  | u5Continue =>
    simp only [exec, execU5Continue]
    split
    · exact .next (.diag s _ _)
    · exact .next (.sx8Continue s _ _ _ _)
  | u5End =>
    simp only [exec, execU5End]
    split
    · exact .next (.diag s _ _)
    · exact .next (.sx8End s _ _ _ _)
  | raCc101 | raCc100 | raCc99 | raCc98 => exact .next (.raStore s _ _ _ _ _)
  | raCc6 => exact .next (.raDataMsb s _ _ _)
  | raCc38 => exact .next (.raDataLsb s _ _ _)
  | raCc96 | raCc97 => exact .next (.raEmit s _ _ _ _)
  | raCc121 => exact .next (.raResetControllers s _ _ _)
  | raPass => exact .next (.emit s _)

/-! ### The transactions -/

/-- A packet is dropped with LENGTH, or runs its row (R201, R203). -/
theorem packet_kept (s : State) (w0 : Word) (rest : List Word) : AnswersKept s (packet w0 rest s) := by
  unfold packet
  split
  · exact .next (.diag s _ _)
  · rw [← exec_umpRow]
    exact exec_row_kept s (umpRow_not_transaction _ _ _ _)

/-- A word is kept in a packet still incomplete, or completes one (R28, R200). -/
theorem execWord_kept (s : State) (w : Word) : AnswersKept s (execWord w s) := by
  unfold execWord
  split
  · split
    · exact packet_kept s w []
    · rename_i hwc
      have hpos := wc_pos (mtOf w)
      refine .next (.setWf fun _ => ⟨nofun, ?_⟩)
      rintro _ _ ⟨⟩
      exact ⟨rfl, by simp; omega⟩
  · rename_i w0 rest hbuf
    split
    · intro t ht
      have emptied : Kept s { s with wf := ⟨[], 0⟩ } := .setWf fun _ => ⟨fun _ => rfl, nofun⟩
      exact emptied.trans (packet_kept _ w0 (rest ++ [w]) t ht)
    · rename_i hlen
      refine .next (.setWf fun h => ⟨nofun, ?_⟩)
      obtain ⟨hneed, hlt⟩ := h.wf.part w0 rest hbuf
      rintro _ _ ⟨⟩
      refine ⟨hneed, ?_⟩
      show (rest ++ [w]).length + 1 < s.wf.need
      simp at hlen ⊢
      omega

/-- Every instruction but CONFIG. -/
theorem exec_kept (s : State) {i : Instr} (hi : ∀ v, i ≠ .config v) : AnswersKept s (exec i s) := by
  by_cases hrow : isTransaction i = false
  · exact exec_row_kept s hrow
  cases i with
  | byte b =>
    show AnswersKept s (execByte b s)
    rw [execByte_row s s.dataRow_selected]
    exact exec_row_kept s (decodeByte_not_transaction _ b)
  | word w => exact execWord_kept s w
  | packet w0 rest => exact packet_kept s w0 rest
  | reset => exact .next (.reset s)
  | config v => exact absurd rfl (hi v)
  | tagRsvd5 | tagRsvd6 | tagRsvd7 => exact .next (.diag s _ _)
  | _ => exact absurd rfl hrow

/-- CONFIG writes no reserved bit of CFG, and nothing else (R40, R41, R351). -/
theorem State.Inv.config {s : State} (h : State.Inv s) (v : Word) : State.Inv { s with cfg := v &&& Config.cfgMask } := by
  have reserved : (v &&& Config.cfgMask) &&& 0xFFFFF0C0#32 = 0 := by
    rw [BitVec.and_assoc, show Config.cfgMask &&& 0xFFFFF0C0#32 = 0#32 by decide, BitVec.and_zero]
    rfl
  exact ⟨reserved, h.max, h.mp, h.wf, h.sx7, h.sx8, h.ra⟩

/-- A transaction always answers (R360). -/
theorem exec_decodeTxn_answers (s : State) (x : Txn) : Answers (exec (decodeTxn x) s) := by
  unfold decodeTxn
  split
  · obtain ⟨t, ht, _⟩ := execByte_spec (s := s) (x.data.extractLsb' 0 8)
    exact ⟨t, ht⟩
  · obtain ⟨t, _, ht, _⟩ := execWord_spec s (dataWord x.data 0)
    exact ⟨t, ht⟩
  · obtain ⟨t, ht, _⟩ := packet_spec (s := s) (dataWord x.data 0)
      ([dataWord x.data 1, dataWord x.data 2, dataWord x.data 3].take x.len.toNat)
    exact ⟨t, ht⟩
  all_goals exact ⟨_, rfl⟩

end Sys2Proof.Machine
end

section
/-! SUPPORT. The obligations of 10_state.md on the invariant and on CFG. -/

namespace Sys2Proof.Machine

/-- Settles O5: CONFIG by its mask, every other instruction by `exec_kept`. -/
theorem everyInstructionKeepsTheInvariant : Obligations.EveryInstructionKeepsTheInvariant := by
  intro i s t hinv ht
  by_cases hi : ∃ v, i = .config v
  · obtain ⟨v, rfl⟩ := hi
    cases ht
    exact hinv.config v
  · exact (exec_kept s (fun v hv => hi ⟨v, hv⟩) t ht).inv hinv

/-- Settles O13: `step` is `exec` of what `State.fetch` takes. -/
theorem stepRunsTheNextTransaction : Obligations.StepRunsTheNextTransaction := by
  constructor
  · intro s x rest h
    rw [step, State.fetch, h]
  · intro s h
    rw [step, State.fetch, h]

/-- Settles O6: the step is the next transaction's instruction, which answers and keeps the invariant. -/
theorem everyStepKeepsTheInvariant : Obligations.EveryStepKeepsTheInvariant := by
  intro s hinv
  obtain ⟨runsNext, waits⟩ := stepRunsTheNextTransaction
  cases hinp : s.inp with
  | nil => exact ⟨s, waits s hinp, hinv⟩
  | cons x rest =>
    rw [runsNext s x rest hinp]
    have taken : State.Inv { s with inp := rest } :=
      ⟨hinv.cfg, hinv.max, hinv.mp, hinv.wf, hinv.sx7, hinv.sx8, hinv.ra⟩
    obtain ⟨t, ht⟩ := exec_decodeTxn_answers { s with inp := rest } x
    exact ⟨t, ht, everyInstructionKeepsTheInvariant _ _ t taken ht⟩

/-- Settles O11: CONFIG writes CFG alone, every other instruction is `exec_kept`'s. -/
theorem onlyConfigWritesCfg : Obligations.OnlyConfigWritesCfg := by
  intro i s t ht
  by_cases hi : ∃ v, i = .config v
  · obtain ⟨v, rfl⟩ := hi
    cases ht
    exact ⟨.inr ⟨v, rfl⟩, rfl, rfl⟩
  · have kept := exec_kept s (fun v hv => hi ⟨v, hv⟩) t ht
    exact ⟨.inl kept.cfg, kept.sysexMax, kept.inp⟩

/-- Settles O4: every element of `State.reset` is at its R45 value, for which each part of the invariant holds. -/
theorem resetMeetsTheInvariant : Obligations.ResetMeetsTheInvariant := by
  refine ⟨by decide, trivial, Mp.Inv.reset, ⟨fun _ => rfl, nofun⟩, ?_, ?_, ?_⟩
  · simp [State.sx7At, State.reset]
  · simp [State.sx8At, State.reset]
  · intro g c
    rw [State.raAt, State.reset, raReset_at]
    exact RaRec.Inv.emptyRec

/-- Settles O1: both states hold `Mp.reset`, `Wf.reset`, `Up.reset` and `raReset`, whose elements are R45's. -/
theorem powerOnAndResetValues : Obligations.PowerOnAndResetValues := by
  have buffers {s : State} (h : s.up = Up.reset) (g : U4) : s.sx7At g = none ∧ s.sx8At g = none := by
    simp [State.sx7At, State.sx8At, h]
  have records {s : State} (h : s.ra = raReset) (g c : U4) : s.raAt g c = ⟨none, none, none, none, none⟩ := by
    simp only [State.raAt, h, raReset_at]
    rfl
  refine ⟨rfl, rfl, rfl, rfl, buffers rfl, records rfl, fun s => ?_⟩
  exact ⟨_, rfl, rfl, rfl, rfl, rfl, buffers rfl, records rfl, rfl, rfl⟩

end Sys2Proof.Machine
end

section
/-! SUPPORT. A CONFIG in the middle of a message (10_state.md R42, R351; 70_reset_and_hazards.md R397). -/

namespace Sys2Proof.Machine

variable (s : State)

/-! ### CFG after CONFIG -/

/-- The state CONFIG(v) leaves (R351). -/
def State.configured (v : Word) : State := { s with cfg := v &&& Config.cfgMask }

theorem exec_config (v : Word) : exec (.config v) s = .next (s.configured v) := rfl

@[simp] theorem State.configured_mp (v : Word) : (s.configured v).mp = s.mp := rfl

@[simp] theorem State.configured_vel0Off (v : Word) : vel0Off (s.configured v).cfg = v.getLsbD 0 := by
  rw [vel0Off, State.configured, BitVec.getLsbD_and, show Config.cfgMask.getLsbD 0 = true by decide, Bool.and_true]

@[simp] theorem State.configured_scClearsRs (v : Word) : scClearsRs (s.configured v).cfg = v.getLsbD 2 := by
  rw [scClearsRs, State.configured, BitVec.getLsbD_and, show Config.cfgMask.getLsbD 2 = true by decide, Bool.and_true]

@[simp] theorem State.configured_m1Group (v : Word) : m1Group (s.configured v).cfg = v.extractLsb' 8 4 := by
  rw [m1Group, State.configured, BitVec.extractLsb'_and, show Config.cfgMask.extractLsb' 8 4 = BitVec.allOnes 4 by decide,
    BitVec.and_allOnes]

/-! ### The bytes that complete a message -/

variable {s}

theorem execAll_cons {i : Instr} {t : State} (h : exec i s = .next t) (rest : List Instr) :
    execAll (i :: rest) s = execAll rest t := by
  simp only [execAll, h]

/-- The last data byte completes the message; that MP goes to IDLE may as well be said first (R143, R146). -/
theorem exec_dataData_last (hm : s.mp.mode = .data) (h : s.mp.k + 1 = need s.mp.cur) (d : U7) :
    exec (.dataData d) s = .next (({ s with mp := { s.mp with mode := .idle, k := 0 } } : State).complete s.mp.cur
      (if s.mp.k = 0 then d else s.mp.d0) (if s.mp.k = 0 then 0#7 else d)) := by
  simp only [exec, execDataData, hm, State.dataInMessage, if_pos h, State.complete_set_mp]
  split <;> simp only [State.complete_mp]

/-- The first data byte of two is kept (R143). -/
theorem exec_dataData_first (hm : s.mp.mode = .data) (h : s.mp.k + 1 ≠ need s.mp.cur) (d : U7) :
    exec (.dataData d) s = .next { s with mp := { s.mp with d0 := d, k := 1 } } := by
  simp only [exec, execDataData, hm, State.dataInMessage, if_neg h]

/-- 0xF7 in SYSEX emits the payload (R162), in the group of the CFG it finds (R42). -/
theorem exec_eox_sysex (hm : s.mp.mode = .sysex) : exec .eox s = .next
    { s with
      mp := { s.mp with mode := .idle, sx := [], rs := if scClearsRs s.cfg = true then none else s.mp.rs }
      out := s.out ++ [.ev (.sysEx7 (m1Group s.cfg) s.mp.sx)] } := by
  simp [exec, execEox, State.eox, State.preempt_eq, afterPreempt, preemptMode, preemptItems, hm, State.deliver, State.emit,
    State.group, scClearsRs]

theorem channel_toNat_div (nib ch : U4) : (nib ++ ch : Byte).toNat / 16 = nib.toNat := by
  have := ch.isLt
  rw [channel_toNat]
  omega

theorem messageEvent_noteon (cfg : Word) (ch : U4) (d1 d2 : U7) :
    messageEvent cfg (0x9#4 ++ ch) d1 d2 = some (noteOnEvent cfg ch d1 d2) := by
  rw [messageEvent, channel_toNat_div, statusChannel, channel_ch]
  rfl

theorem need_noteon (ch : U4) : need (0x9#4 ++ ch) = 2 := by
  rw [need, channel_toNat_div]
  rfl

/-! ### CONFIG before them -/

/-- CONFIG and the last data byte: the message is completed under the new CFG (R42). -/
theorem execAll_config_last (hm : s.mp.mode = .data) (h : s.mp.k + 1 = need s.mp.cur) (v : Word) (d : U7) :
    execAll [.config v, .dataData d] s = .next
      (({ s.configured v with mp := { s.mp with mode := .idle, k := 0 } } : State).complete s.mp.cur
        (if s.mp.k = 0 then d else s.mp.d0) (if s.mp.k = 0 then 0#7 else d)) := by
  rw [execAll_cons (exec_config s v), execAll_cons (exec_dataData_last (s := s.configured v) hm h d)]
  rfl

/-- The same of a message that is no control change: its event goes to OUT (R146, R397). -/
theorem execAll_config_event (hm : s.mp.mode = .data) (h : s.mp.k + 1 = need s.mp.cur) {v : Word} {d : U7} {e : Event}
    (he : messageEvent (s.configured v).cfg s.mp.cur (if s.mp.k = 0 then d else s.mp.d0)
      (if s.mp.k = 0 then 0#7 else d) = some e) (hb : s.mp.cur.extractLsb' 4 4 ≠ 0xB#4) :
    execAll [.config v, .dataData d] s = .next
      (appended { s.configured v with mp := { s.mp with mode := .idle, k := 0 } } [.ev e]) :=
  (execAll_config_last hm h v d).trans (congrArg _ (State.complete_event _ he hb))

/-- CONFIG and both data bytes of a two-byte status: the same. -/
theorem execAll_config_both (hm : s.mp.mode = .data) (hk : s.mp.k = 0) (h : need s.mp.cur = 2) (v : Word) (d1 d2 : U7) :
    execAll [.config v, .dataData d1, .dataData d2] s = .next
      (({ s.configured v with mp := { s.mp with mode := .idle, d0 := d1 } } : State).complete s.mp.cur d1 d2) := by
  have notLast : s.mp.k + 1 ≠ need s.mp.cur := by omega
  have mp_eq : ({ s.mp with mode := .idle, d0 := d1 } : Mp) = { s.mp with mode := .idle, d0 := d1, k := 0 } := by
    rw [← hk]
  have first := exec_dataData_first (s := s.configured v) hm notLast d1
  have last := exec_dataData_last (s := { s.configured v with mp := { s.mp with d0 := d1, k := 1 } }) hm h.symm d2
  rw [execAll_cons (exec_config s v), execAll_cons first, mp_eq]
  exact execAll_cons last []

/-- Settles O35: each clause runs CONFIG and then the byte that completes the message, by the rule of that byte. -/
theorem configInTheMiddleOfAMessage : Obligations.ConfigInTheMiddleOfAMessage := by
  refine ⟨?last, ?both, ?sysex, ?noteon, ?bussel⟩
  case last =>
    intro s v d hm h
    rw [execAll_config_last hm h]
    exact State.complete_done _ _ _ (by omega)
  case both =>
    intro s v d1 d2 hm hk h
    rw [execAll_config_both hm hk h]
    exact State.complete_done _ _ _ (by omega)
  case sysex =>
    intro s v hm
    rw [execAll_cons (exec_config s v), execAll_cons (exec_eox_sysex (s := s.configured v) hm)]
    simp only [State.configured_m1Group, State.configured_scClearsRs]
    rfl
  case noteon =>
    intro s v ch hm hk hcur
    refine execAll_config_event hm (by rw [hk, hcur, need_noteon]) ?_ (by simp [hcur])
    rw [hcur, messageEvent_noteon]
    simp [hk, noteOnEvent]
  case bussel =>
    intro s v d hm hk hcur
    rw [execAll_config_event (e := .busSelect (v.extractLsb' 8 4) d) hm (by rw [hk, hcur]; decide) ?_ (by rw [hcur]; decide),
      ← hk]
    · rfl
    · simp [hk, hcur, messageEvent, systemEvent]

end Sys2Proof.Machine
end

section
/-! SUPPORT. The obligation of 20_memory.md: of BYTE, WORD and PACKET, only BYTE writes MP state, only WORD writes WF state,
and BYTE writes no UP state (R67; 41_ump_framer.md R205). -/

namespace Sys2Proof.Machine

/-- Settles O12: what a transaction answers is the state that `execByte_spec`, `execWord_spec` or `packet_spec` gives, with the
fields it keeps. -/
theorem pathsAreIndependent : Obligations.PathsAreIndependent := by
  refine ⟨?byte, ?word, ?packet⟩
  case byte =>
    intro b s t ht
    obtain ⟨u, hu, frame, _⟩ := execByte_spec (s := s) b
    cases hu.symm.trans ht
    exact ⟨frame.wf, frame.up⟩
  case word =>
    intro w s t ht
    obtain ⟨u, _, hu, _, _, mp_eq, _⟩ := execWord_spec s w
    cases hu.symm.trans ht
    exact mp_eq
  case packet =>
    intro w0 rest s t ht
    obtain ⟨u, hu, frame⟩ := packet_spec (s := s) w0 rest
    cases hu.symm.trans ht
    exact ⟨frame.mp, frame.wf⟩

end Sys2Proof.Machine
end

section
/-! SUPPORT. The decoder undoes the encoder on every well-formed instruction, and the encoder the decoder on every byte,
packet and controller (30_encoding.md R80 to R104, R121, R128). -/

namespace Sys2Proof.Machine

/-! ### Packets of the encoder's words, by message type (R95) -/

theorem decodeUmp_mt0 (g st x : U4) (time : U16) :
    decodeUmp (umpWord0 g st x time) [] = .ok (decodeU0 (umpWord0 g st x time)) := by
  simp [decodeUmp, wc, umpRow]

theorem decodeUmp_mt1 (g : U4) (status b1 b2 : Byte) :
    decodeUmp (umpWord1 g status b1 b2) [] = .ok (decodeU1 (umpWord1 g status b1 b2)) := by
  simp [decodeUmp, wc, umpRow]

theorem decodeUmp_mt2 (g st x : U4) (b1 b2 : Byte) :
    decodeUmp (umpWord 0x2#4 g st x b1 b2) [] = .ok (decodeU2 (umpWord 0x2#4 g st x b1 b2)) := by
  simp [decodeUmp, wc, umpRow]

theorem decodeUmp_mt3 (g st x : U4) (b1 b2 : Byte) (w1 : Word) :
    decodeUmp (umpWord 0x3#4 g st x b1 b2) [w1] = .ok (decodeU3 (umpWord 0x3#4 g st x b1 b2) w1) := by
  simp [decodeUmp, wc, umpRow, wordAt]

theorem decodeUmp_mt4 (g st x : U4) (b1 b2 : Byte) (w1 : Word) :
    decodeUmp (umpWord 0x4#4 g st x b1 b2) [w1] = .ok (decodeU4 (umpWord 0x4#4 g st x b1 b2) w1) := by
  simp [decodeUmp, wc, umpRow, wordAt]

theorem decodeUmp_mt5 (g st x : U4) (b1 b2 : Byte) (w1 w2 w3 : Word) :
    decodeUmp (umpWord 0x5#4 g st x b1 b2) [w1, w2, w3] =
      .ok (decodeU5 (umpWord 0x5#4 g st x b1 b2) w1 w2 w3) := by
  simp [decodeUmp, wc, umpRow, wordAt]

/-! ### Decoding what the encoder gives -/

/-- Settles O15: each row by its format, a packet by its message type, and a fallback row by the check that makes it
well-formed. -/
theorem decodeOfEncodeIsTheInstruction : Obligations.DecodeOfEncodeIsTheInstruction := by
  intro sel i hwf hsel
  cases i with
  | byte | word | config | reset | tagRsvd5 | tagRsvd6 | tagRsvd7 => simp [encode, decode, decodeTxn]
  | packet w0 rest => exact congrArg _ (decodeTxn_ump w0 (of_decide_eq_true hwf))
  | dataRs v | dataOrphan v | dataData v | dataSysex v | dataSxdiscard v =>
    obtain rfl := hsel _ rfl
    exact congrArg _ (decodeByte_data _ v)
  | noteoff ch | noteon ch | polypress ch | cc ch | progchg ch | chanpress ch | pitchbend ch =>
    exact congrArg _ (decodeByte_channel sel _ ch)
  | sysexStart | mtcQf | songpos | songsel | undefF4 | busselF5 | tunereq | eox | clock | undefF9 | rtStart | rtContinue
  | rtStop | undefFd | actsense | sysreset => rfl
  | u0Noop | u0Jrclock | u0Jrts => simp [encode, decode, decodeUmp_mt0, decodeU0]
  | u0Other g st =>
    have other : 3#4 ≤ st := of_decide_eq_true hwf
    simp [encode, decode, decodeUmp_mt0, decodeU0_other, other]
  | u1MtcQf | u1Songpos | u1Songsel | u1Bussel | u1Tunereq | u1Clock | u1Start | u1Continue | u1Stop | u1Actsense
  | u1Sysreset => simp [encode, decode, decodeUmp_mt1, decodeU1]
  | u1Other g status =>
    have other : status ∉ u1Statuses := by simpa [Instr.wellFormed] using hwf
    simp [encode, decode, decodeUmp_mt1, decodeU1_other, other]
  | u2Noteoff | u2Noteon | u2Polypress | u2Cc | u2Progchg | u2Chanpress | u2Pitchbend | u2OtherF =>
    simp [encode, decode, decodeUmp_mt2, decodeU2]
  | u2Other07 g op => simp [encode, decode, decodeUmp_mt2, decodeU2_other07, op3_lt op]
  | u3Complete | u3Start | u3Continue | u3End => simp [encode, decode, decodeUmp_mt3, decodeU3]
  | u3Other g st =>
    have other : 4#4 ≤ st := of_decide_eq_true hwf
    simp [encode, decode, decodeUmp_mt3, decodeU3_other, other]
  | u4Pnrc | u4Pnac | u4Rc | u4Ac | u4Rrc | u4Rac | u4Pnpb | u4Op7 | u4Noteoff | u4Noteon | u4Polypress | u4Cc | u4Progchg
  | u4Chanpress | u4Pitchbend | u4Pnmgmt => simp [encode, decode, decodeUmp_mt4, decodeU4]
  | u5Complete | u5Start | u5Continue | u5End => simp [encode, decode, decodeUmp_mt5, decodeU5]
  | u5Other g st =>
    have other : 4#4 ≤ st := of_decide_eq_true hwf
    simp [encode, decode, decodeUmp_mt5, decodeU5_other, other]
  | u6 | u7 | u8 | u9 | uA | uB | uC | uD | uE | uF => simp [encode, decode, decodeUmp, wc, umpRow, wordAt]
  | raCc101 | raCc100 | raCc99 | raCc98 | raCc6 | raCc38 | raCc96 | raCc97 | raCc121 => rfl
  | raPass g ch ctrl v =>
    have other : ctrl ∉ raControllers := by simpa [Instr.wellFormed] using hwf
    exact congrArg _ (decodeCc_pass g ch v other)

/-! ### Encoding what a byte decodes to (R82, R85) -/

theorem encode_decodeData (sel : DataRow) (v : U7) : encode (decodeData sel v) = .byte8 (dataByteOf v) := by
  cases sel <;> rfl

theorem encode_decodeSystem : ∀ n : U4, encode (decodeSystem n) = .byte8 (0xF#4 ++ n) := by decide

/-- A byte is its high nibble and its channel. -/
theorem channel_of_nib {b : Byte} {nib : U4} (h : (b.extractLsb' 4 4).toNat = nib.toNat) :
    (nib ++ b.extractLsb' 0 4 : Byte) = b := by
  rw [← BitVec.eq_of_toNat_eq h, channel_fields]

/-- A byte whose high nibble is below 8 is a data byte. -/
theorem dataByteOf_low_of_nib {b : Byte} (h : (b.extractLsb' 4 4).toNat < 8) :
    dataByteOf (b.extractLsb' 0 7) = b := by
  refine dataByteOf_low ?_
  rw [← channel_fields b, channel_bit7]
  exact Nat.testBit_lt_two_pow h

theorem encode_decodeByte (sel : DataRow) (b : Byte) : encode (decodeByte sel b) = .byte8 b := by
  unfold decodeByte
  split
  case h_8 h => rw [encode_decodeSystem, channel_of_nib h]
  case h_9 =>
    have := (b.extractLsb' 4 4).isLt
    rw [encode_decodeData, dataByteOf_low_of_nib (by grind)]
  all_goals exact congrArg Code.byte8 (channel_of_nib ‹_›)

/-! ### Encoding what a packet decodes to (R90, R95 to R104) -/

section
variable {w w1 w2 w3 : Word}

theorem umpWord0_eq_of_st {st : U4} (hm : mtOf w = 0x0#4) (hs : (stOf w).toNat = st.toNat) :
    umpWord0 (grpOf w) st (chOf w) (timeOf w) = w := by
  rw [← BitVec.eq_of_toNat_eq hs, umpWord0_fields w hm]

theorem umpWord1_eq_of_status {status : Byte} (hm : mtOf w = 0x1#4) (hs : (statusOf w).toNat = status.toNat) :
    umpWord1 (grpOf w) status (b1Of w) (b2Of w) = w := by
  rw [← BitVec.eq_of_toNat_eq hs, umpWord1_fields w hm]

theorem umpWord_eq_of_st {mt st : U4} (hm : mtOf w = mt) (hs : (stOf w).toNat = st.toNat) :
    umpWord mt (grpOf w) st (chOf w) (b1Of w) (b2Of w) = w := by
  rw [← hm, ← BitVec.eq_of_toNat_eq hs, umpWord_fields]

theorem umpWordR_eq_of_mt {mt : U4} (hm : (mtOf w).toNat = mt.toNat) : umpWordR mt (grpOf w) (lowOf w) = w := by
  rw [← BitVec.eq_of_toNat_eq hm, umpWordR_fields]

theorem encode_decodeU0 (hm : mtOf w = 0x0#4) : encode (decodeU0 w) = .ump w [] := by
  unfold decodeU0
  split
  case h_4 => exact congrArg (Code.ump · []) (umpWord0_eq_of_st hm rfl)
  all_goals exact congrArg (Code.ump · []) (umpWord0_eq_of_st hm ‹_›)

theorem encode_decodeU1 (hm : mtOf w = 0x1#4) : encode (decodeU1 w) = .ump w [] := by
  unfold decodeU1
  split
  case h_12 => exact congrArg (Code.ump · []) (umpWord1_eq_of_status hm rfl)
  all_goals exact congrArg (Code.ump · []) (umpWord1_eq_of_status hm ‹_›)

/-- The three low bits of an opcode below 8 are the opcode (R248). -/
theorem op3_toNat (h : (stOf w).toNat < 8) : (stOf w).toNat = (0#1 ++ w.extractLsb' 20 3 : U4).toNat := by
  rw [stOf, toNat_field] at h
  rw [toNat_fields, stOf, toNat_field, toNat_field]
  simp
  omega

theorem encode_decodeU2 (hm : mtOf w = 0x2#4) : encode (decodeU2 w) = .ump w [] := by
  unfold decodeU2
  split
  case h_9 =>
    have := (stOf w).isLt
    exact congrArg (Code.ump · []) (umpWord_eq_of_st hm (op3_toNat (by grind)))
  all_goals exact congrArg (Code.ump · []) (umpWord_eq_of_st hm ‹_›)

theorem encode_decodeU3 (hm : mtOf w = 0x3#4) : encode (decodeU3 w w1) = .ump w [w1] := by
  unfold decodeU3
  split
  case h_5 => exact congrArg (Code.ump · [w1]) (umpWord_eq_of_st hm rfl)
  all_goals exact congrArg (Code.ump · [w1]) (umpWord_eq_of_st hm ‹_›)

theorem encode_decodeU4 (hm : mtOf w = 0x4#4) : encode (decodeU4 w w1) = .ump w [w1] := by
  unfold decodeU4
  split
  case h_16 =>
    have := (stOf w).isLt
    exact congrArg (Code.ump · [w1]) (umpWord_eq_of_st hm (show _ = 15 by grind))
  all_goals exact congrArg (Code.ump · [w1]) (umpWord_eq_of_st hm ‹_›)

theorem encode_decodeU5 (hm : mtOf w = 0x5#4) : encode (decodeU5 w w1 w2 w3) = .ump w [w1, w2, w3] := by
  unfold decodeU5
  split
  case h_5 => exact congrArg (Code.ump · [w1, w2, w3]) (umpWord_eq_of_st hm rfl)
  all_goals exact congrArg (Code.ump · [w1, w2, w3]) (umpWord_eq_of_st hm ‹_›)

/-- A row keeps the words its message type has (R95). -/
theorem encode_umpRow : encode (umpRow w w1 w2 w3) = .ump w ([w1, w2, w3].take (wc (mtOf w) - 1)) := by
  unfold umpRow wc
  split <;> rename_i h
  case h_1 => rw [h]; exact encode_decodeU0 (BitVec.eq_of_toNat_eq h)
  case h_2 => rw [h]; exact encode_decodeU1 (BitVec.eq_of_toNat_eq h)
  case h_3 => rw [h]; exact encode_decodeU2 (BitVec.eq_of_toNat_eq h)
  case h_4 => rw [h]; exact encode_decodeU3 (BitVec.eq_of_toNat_eq h)
  case h_5 => rw [h]; exact encode_decodeU4 (BitVec.eq_of_toNat_eq h)
  case h_6 => rw [h]; exact encode_decodeU5 (BitVec.eq_of_toNat_eq h)
  case h_16 =>
    have h : (mtOf w).toNat = 15 := by have := (mtOf w).isLt; grind
    rw [h]; exact congrArg (Code.ump · _) (umpWordR_eq_of_mt h)
  all_goals rw [h]; exact congrArg (Code.ump · _) (umpWordR_eq_of_mt h)

theorem wordAt_take {rest : List Word} (h : rest.length ≤ 3) :
    [wordAt rest 0, wordAt rest 1, wordAt rest 2].take rest.length = rest := by
  match rest, h with
  | [], _ | [_], _ | [_, _], _ | [_, _, _], _ => rfl
  | _ :: _ :: _ :: _ :: _, h => simp at h; omega

theorem wc_le (mt : U4) : wc mt ≤ 4 := by
  unfold wc
  split <;> decide

/-- A packet decodes only with the words of its message type, and then to its row (R81). -/
theorem decodeUmp_eq_ok {rest : List Word} {i : Instr} : decodeUmp w rest = .ok i ↔
    rest.length + 1 = wc (mtOf w) ∧ umpRow w (wordAt rest 0) (wordAt rest 1) (wordAt rest 2) = i := by
  unfold decodeUmp
  split <;> simp_all

theorem encode_of_decodeUmp {rest : List Word} {i : Instr} (h : decodeUmp w rest = .ok i) : encode i = .ump w rest := by
  obtain ⟨hlen, rfl⟩ := decodeUmp_eq_ok.1 h
  have := wc_le (mtOf w)
  rw [encode_umpRow, ← hlen, Nat.add_sub_cancel, wordAt_take (by omega)]

end

/-! ### Encoding what a controller decodes to (R121) -/

theorem encode_decodeCc (g ch : U4) (ctrl v : U7) : encode (decodeCc g ch ctrl v) = .cc7 g ch ctrl v := by
  unfold decodeCc
  split
  case h_10 => rfl
  all_goals exact congrArg (Code.cc7 g ch · v) (BitVec.eq_of_toNat_eq (Eq.symm ‹_›))

/-! ### What decodes is well-formed (R63, R128) -/

theorem decodeTxn_wellFormed (x : Txn) : (decodeTxn x).wellFormed = true := by
  unfold decodeTxn
  split
  case h_3 => simp [Instr.wellFormed]
  all_goals rfl

theorem decodeByte_wellFormed (sel : DataRow) (b : Byte) : (decodeByte sel b).wellFormed = true := by
  have system : ∀ n : U4, (decodeSystem n).wellFormed = true := by decide
  unfold decodeByte
  split
  case h_8 => exact system _
  case h_9 => cases sel <;> rfl
  all_goals rfl

theorem decodeU0_wellFormed (w0 : Word) : (decodeU0 w0).wellFormed = true := by
  unfold decodeU0
  split
  case h_4 => exact decide_eq_true (show 3 ≤ (stOf w0).toNat by grind)
  all_goals rfl

theorem decodeU1_wellFormed (w0 : Word) : (decodeU1 w0).wellFormed = true := by
  unfold decodeU1
  split
  case h_12 => simp_all [Instr.wellFormed, u1Statuses, BitVec.toNat_eq]
  all_goals rfl

theorem decodeU3_wellFormed (w0 w1 : Word) : (decodeU3 w0 w1).wellFormed = true := by
  unfold decodeU3
  split
  case h_5 => exact decide_eq_true (show 4 ≤ (stOf w0).toNat by grind)
  all_goals rfl

theorem decodeU5_wellFormed (w0 w1 w2 w3 : Word) : (decodeU5 w0 w1 w2 w3).wellFormed = true := by
  unfold decodeU5
  split
  case h_5 => exact decide_eq_true (show 4 ≤ (stOf w0).toNat by grind)
  all_goals rfl

theorem umpRow_wellFormed (w0 w1 w2 w3 : Word) : (umpRow w0 w1 w2 w3).wellFormed = true := by
  unfold umpRow
  split
  case h_1 => exact decodeU0_wellFormed w0
  case h_2 => exact decodeU1_wellFormed w0
  case h_3 => unfold decodeU2; split <;> rfl
  case h_4 => exact decodeU3_wellFormed w0 w1
  case h_5 => unfold decodeU4; split <;> rfl
  case h_6 => exact decodeU5_wellFormed w0 w1 w2 w3
  all_goals rfl

theorem decodeCc_wellFormed (g ch : U4) (ctrl v : U7) : (decodeCc g ch ctrl v).wellFormed = true := by
  unfold decodeCc
  split
  case h_10 => simp_all [Instr.wellFormed, raControllers, BitVec.toNat_eq]
  all_goals rfl

/-- Settles O16: each format by the row its bits select. -/
theorem encodeOfDecodeIsTheCode : Obligations.EncodeOfDecodeIsTheCode := by
  refine ⟨encode_decodeByte, fun _ _ _ => encode_of_decodeUmp, encode_decodeCc, fun sel c i h => ?_⟩
  cases c with
  | txn x => cases h; exact decodeTxn_wellFormed x
  | byte8 b => cases h; exact decodeByte_wellFormed sel b
  | ump w0 rest =>
    obtain ⟨_, rfl⟩ := decodeUmp_eq_ok.1 h
    exact umpRow_wellFormed _ _ _ _
  | cc7 g ch ctrl v => cases h; exact decodeCc_wellFormed g ch ctrl v

end Sys2Proof.Machine
end

section
/-! SUPPORT. A code on the port runs the row it decodes to (30_encoding.md R80, R82), and what a channel status byte leaves
(40_midi1_parser.md R147 to R154). -/

namespace Sys2Proof.Machine

/-! ### A code on the port runs its row -/

/-- Settles O18: what a byte answers is what the row it selects answers, and it always answers. -/
theorem byteRunsItsRow : Obligations.ByteRunsItsRow := by
  intro b s sel hsel
  obtain ⟨t, ht, _⟩ := execByte_spec (s := s) b
  exact ⟨t, ht, (execByte_row s hsel b).symm.trans ht⟩

/-- A status byte runs its row in every state, a data byte in a state that selects it (R82, R140). -/
theorem exec_byte_of_dataRow {s : State} {sel : DataRow} {b : Byte}
    (h : ∀ r, (decodeByte sel b).dataRow = some r → Selected s r) : exec (.byte b) s = exec (decodeByte sel b) s := by
  cases h7 : b.getLsbD 7 with
  | true => rw [decodeByte_status h7 sel s.dataRow]; exact execByte_row s s.dataRow_selected b
  | false =>
    refine execByte_row s (h sel ?_) b
    rw [← dataByteOf_low h7, decodeByte_data]
    cases sel <;> rfl

/-- A code of the opcode table, presented, is run as the instruction it decodes to. -/
theorem exec_present {s : State} {nbits w : Nat} {c : Code} {i : Instr} (hc : tableCode nbits w = some c)
    (hi : decode .orphan c = .ok i) (hsel : ∀ r, i.dataRow = some r → Selected s r) :
    exec (decodeTxn c.present) s = exec i s := by
  cases c with
  | txn x => cases hi; rfl
  | byte8 b =>
    cases hi
    rw [show decodeTxn (Code.byte8 b).present = .byte b from congrArg Instr.byte (byte_setWidth b)]
    exact exec_byte_of_dataRow hsel
  | ump w0 rest => rw [decodeTxn_ump w0 (tableCode_rest hc)]; exact exec_packet_row s hi
  | cc7 g ch ctrl v => cases hi; exact exec_present_cc s g ch ctrl v

/-- Settles O14: the step takes the transaction just presented, and each format's code runs its row. -/
theorem presentedTableWordIsRun : Obligations.PresentedTableWordIsRun := by
  intro s nbits w i hi hsel
  rw [decodeTableWord] at hi
  cases hc : tableCode nbits w with
  | none => simp [hc] at hi
  | some c =>
    rw [hc] at hi
    have hd : decode .orphan c = .ok i := by
      cases h : decode .orphan c <;> simp_all [Except.toOption]
    rw [State.withFetchWord, hc]
    exact exec_present hc hd hsel

/-! ### Channel status bytes (R147 to R154) -/

theorem State.startChannel_eq (s : State) (st : Byte) : s.startChannel st =
    { afterPreempt s st with mp := { (afterPreempt s st).mp with rs := some st, cur := st, k := 0, mode := .data } } := by
  rw [State.startChannel, s.preempt_eq]

/-- Settles O30: every row is `startChannel` of its status byte. -/
theorem channelStatusByte : Obligations.ChannelStatusByte := by
  intro s ch begun
  have started (st : Byte) : .next (s.startChannel st) = begun st := congrArg _ (s.startChannel_eq st)
  exact ⟨started _, started _, started _, started _, started _, started _, started _⟩

end Sys2Proof.Machine
end

section
/-! SUPPORT. Runs of the controllers of 30_encoding.md R129 through the parameter assembler (44_rpn_nrpn.md R311 to R321). -/

namespace Sys2Proof.Machine

section
variable (s : State) (g ch : U4)

/-- Both halves of a number that is not null, into any record (R313). -/
theorem RaRec.storeNumber_msb_lsb (r : RaRec) (k : ParamKind) {m : U7} (l : U7) (hm : m ≠ 127#7) :
    (r.storeNumber k .msb m).storeNumber k .lsb l = ⟨some k, some m, some l, none, none⟩ := by
  simp [RaRec.storeNumber, RaRec.dropNull, hm]

/-- Both halves 127 leave no complete number: the record is cleared by the second half; or by the first, which found the
other half of the null number, and then the second stands alone (R313). -/
theorem RaRec.storeNumber_null (r : RaRec) (k : ParamKind) :
    ((r.storeNumber k .msb 127#7).storeNumber k .lsb 127#7).number = none := by
  simp only [RaRec.storeNumber, RaRec.dropNull]
  generalize (if r.kind ≠ none ∧ r.kind ≠ some k then RaRec.empty else r).nLSB = l
  by_cases hl : l = some 127#7 <;> simp [hl, RaRec.number, RaRec.empty]

/-- A number controller, then the other of its pair. -/
theorem State.raStore_raStore (k : ParamKind) (m l : U7) : (s.raStore g ch k .msb m).raStore g ch k .lsb l =
    s.setRa g ch (((s.raAt g ch).storeNumber k .msb m).storeNumber k .lsb l) := by
  simp [State.raStore]

/-- Data entry MSB, then LSB, on a complete number gives one absolute-set event (R318, R319). -/
theorem State.raDataLsb_raDataMsb (k : ParamKind) (m l a b : U7) (hc : deEmitOnMsb s.cfg = false) :
    ((s.setRa g ch ⟨some k, some m, some l, none, none⟩).raDataMsb g ch a).raDataLsb g ch b =
      (appended s [.ev (.paramNumber g ch k (m ++ l) .abs (.v7 a b))]).setRa g ch
        ⟨some k, some m, some l, some a, some b⟩ := by
  simp [State.raDataMsb, State.raDataLsb, State.raEmit, RaRec.number, hc, num14]
  rfl

/-- The four controllers of either kind (R129, RPNSET and NRPNSET). -/
theorem State.paramSet_update (k : ParamKind) {m : U7} (l a b : U7) (hm : m ≠ 127#7)
    (hc : deEmitOnMsb s.cfg = false) :
    RaUpdate (appended s [.ev (.paramNumber g ch k (m ++ l) .abs (.v7 a b))]) g ch
      ⟨some k, some m, some l, some a, some b⟩
      ((((s.raStore g ch k .msb m).raStore g ch k .lsb l).raDataMsb g ch a).raDataLsb g ch b) := by
  rw [State.raStore_raStore, RaRec.storeNumber_msb_lsb _ k l hm, State.raDataLsb_raDataMsb s g ch k m l a b hc]
  exact State.setRa_update _ _ _ _

/-! Without a complete number data entry, increment and decrement change nothing (R318 to R321). -/

section
variable {s g ch} (h : (s.raAt g ch).number = none)
include h

theorem State.raDataMsb_of_none (v : U7) : s.raDataMsb g ch v = s := by rw [State.raDataMsb, h]

theorem State.raDataLsb_of_none (v : U7) : s.raDataLsb g ch v = s := by rw [State.raDataLsb, h]

theorem State.raEmit_of_none (op : ParamOp) (val : ParamValue) : s.raEmit g ch op val = s := by rw [State.raEmit, h]

end

/-- The null number of either kind, and then the four controllers (R129, RPNNULL). -/
theorem State.paramNull_out (k : ParamKind) (a b c d : U7) :
    ((((((s.raStore g ch k .msb 127#7).raStore g ch k .lsb 127#7).raDataMsb g ch a).raDataLsb g ch b).raEmit
      g ch .inc (.v7 0#7 c)).raEmit g ch .dec (.v7 0#7 d)).out = s.out := by
  have incomplete : (((s.raStore g ch k .msb 127#7).raStore g ch k .lsb 127#7).raAt g ch).number = none := by
    rw [State.raStore_raStore, State.setRa_raAt_same, RaRec.storeNumber_null]
  rw [State.raDataMsb_of_none incomplete, State.raDataLsb_of_none incomplete,
    State.raEmit_of_none incomplete, State.raEmit_of_none incomplete]
  rfl

end

/-- Settles O56: both runs are `paramSet_update`, of the kind their number controllers store. -/
theorem parameterAssembly : Obligations.ParameterAssembly := by
  intro s g ch m l a b hm hc
  exact ⟨⟨_, rfl, s.paramSet_update g ch .rpn l a b hm hc⟩, ⟨_, rfl, s.paramSet_update g ch .nrpn l a b hm hc⟩⟩

/-- Settles O57: both runs are `paramNull_out`, of the kind their number controllers store. -/
theorem nullNumberSilencesDataEntry : Obligations.NullNumberSilencesDataEntry := by
  intro s g ch a b c d
  exact ⟨⟨_, rfl, s.paramNull_out g ch .rpn a b c d⟩, ⟨_, rfl, s.paramNull_out g ch .nrpn a b c d⟩⟩

end Sys2Proof.Machine
end

section
/-! SUPPORT. The tables of 30_encoding.md: words of the spec, word and data-byte counts, the event of a message, and the
universal tag (R80 to R104, R86, R87, R95, R114). -/

namespace Sys2Proof.Machine

/-- Settles O17: each word is written out, and decoded by evaluation. -/
theorem specWordsDecode : Obligations.SpecWordsDecode := by
  unfold Obligations.SpecWordsDecode
  decide

/-- Settles O23: the sixteen message types, one by one. -/
theorem wordCounts : Obligations.WordCounts := by
  unfold Obligations.WordCounts
  decide

/-- Settles O24: both sides are tables of the 256 bytes. -/
theorem dataByteCounts : Obligations.DataByteCounts := by
  unfold Obligations.DataByteCounts
  decide

/-- Settles O25: the high nibble of a channel status tells its event, and the four system statuses are literals. -/
theorem messageEvents : Obligations.MessageEvents := by
  intro cfg ch d1 d2
  refine ⟨?_, ?_, ?_, ?_, ?_, ?_, ?_, rfl, rfl, rfl, rfl⟩
  case refine_2 =>
    rw [messageEvent_noteon, noteOnEvent]
    exact apply_ite some _ _ _
  all_goals rw [messageEvent, channel_toNat_div, statusChannel, channel_ch]; rfl

/-- The tag of a payload of values at least 7 bits wide (R114). -/
theorem univ_head {w : Nat} (hw : 7 ≤ w) (p : List (BitVec w)) : univ (p.head?.map BitVec.toNat) =
    if p.head? = some 0x7E then .nonRealtime else if p.head? = some 0x7F then .realtime else .manufacturer := by
  have h7 : 2 ^ 7 ≤ 2 ^ w := Nat.pow_le_pow_right (by decide) hw
  have h7E : (0x7E : BitVec w).toNat = 0x7E := Nat.mod_eq_of_lt (show 126 < 2 ^ w by omega)
  have h7F : (0x7F : BitVec w).toNat = 0x7F := Nat.mod_eq_of_lt (show 127 < 2 ^ w by omega)
  cases p with
  | nil => rfl
  | cons b rest =>
    simp only [List.head?_cons, Option.map_some, Option.some.injEq, ← BitVec.toNat_inj, h7E, h7F, univ]
    split <;> simp_all

/-- Settles O58: both payloads are values of at least seven bits. -/
theorem universalTag : Obligations.UniversalTag :=
  ⟨fun _ p => congrArg some (univ_head (by decide) p), fun _ _ p => congrArg some (univ_head (by decide) p)⟩

end Sys2Proof.Machine
end

section
/-! SUPPORT. Data bytes of the MIDI-1 stream, each in the state that selects its row (40_midi1_parser.md R140 to R145), and
the bounds of R172. -/

namespace Sys2Proof.Machine

variable {s : State}

/-! ### Every row answers, but a DATA row not selected (R140) -/

/-- A DATA row is refused in a state that does not select it (log entry 6). -/
theorem exec_decodeData_refused {sel : DataRow} (h : ¬ Selected s sel) (v : U7) :
    ∃ m, exec (decodeData sel v) s = .refused (.notSelected m) := by
  cases sel
  case rs =>
    simp only [decodeData, exec, execDataRs]
    split
    · exact absurd ⟨‹_›, by simp [*]⟩ h
    · exact ⟨_, rfl⟩
  case orphan =>
    simp only [decodeData, exec, execDataOrphan]
    split
    · exact absurd ⟨‹_›, ‹_›⟩ h
    · exact ⟨_, rfl⟩
  all_goals
    simp only [decodeData, exec, execDataData, execDataSysex, execDataSxdiscard]
    split
    · exact absurd ‹_› h
    · exact ⟨_, rfl⟩

theorem eq_decodeData_of_dataRow {i : Instr} {r : DataRow} (h : i.dataRow = some r) : ∃ v, i = decodeData r v := by
  cases i with
  | dataRs v | dataOrphan v | dataData v | dataSysex v | dataSxdiscard v => cases h; exact ⟨v, rfl⟩
  | _ => cases h

/-- Every other row answers in every state. -/
theorem exec_answers_of_not_data {i : Instr} (hi : i.dataRow = none) (s : State) : Answers (exec i s) := by
  cases i with
  | dataRs | dataOrphan | dataData | dataSysex | dataSxdiscard => cases hi
  | byte b =>
    obtain ⟨t, ht, _⟩ := execByte_spec (s := s) b
    exact ⟨t, ht⟩
  | word w =>
    obtain ⟨t, _, ht, _⟩ := execWord_spec s w
    exact ⟨t, ht⟩
  | packet w0 rest =>
    obtain ⟨t, ht, _⟩ := packet_spec (s := s) w0 rest
    exact ⟨t, ht⟩
  | u3Complete | u3Start | u3Continue | u3End =>
    simp only [exec, execU3Complete, execU3Start, execU3Continue, execU3End]
    split <;> exact ⟨_, rfl⟩
  | u5Complete | u5Start | u5Continue | u5End =>
    simp only [exec, execU5Complete, execU5Start, execU5Continue, execU5End]
    split <;> exact ⟨_, rfl⟩
  | _ => exact ⟨_, rfl⟩

/-- Settles O8: a DATA row answers where it is selected and is refused elsewhere, every other row answers. -/
theorem onlyUnselectedDataRowsAreRefused : Obligations.OnlyUnselectedDataRowsAreRefused := by
  refine ⟨fun i s hsel => ?answers, fun i s r hr hnot => ?refused⟩
  case answers =>
    cases hr : i.dataRow with
    | none => exact exec_answers_of_not_data hr s
    | some r =>
      obtain ⟨v, rfl⟩ := eq_decodeData_of_dataRow hr
      exact ⟨_, exec_decodeData s (hsel r hr) v⟩
  case refused =>
    obtain ⟨v, rfl⟩ := eq_decodeData_of_dataRow hr
    exact exec_decodeData_refused hnot v

/-- Settles O10: the items are those of `execByte_spec`, under the stronger of its two bounds where it gives both. -/
theorem itemsPerByte : Obligations.ItemsPerByte := by
  intro b s
  obtain ⟨t, ht, two, one⟩ := execByte_spec (s := s) b
  by_cases hb : b.getLsbD 7 = false ∨ 0xF8#8 ≤ b
  · obtain ⟨items, hlen, hout⟩ := (one hb).out
    exact ⟨t, items, ht, hout, by omega, fun _ => hlen⟩
  · obtain ⟨items, hlen, hout⟩ := two.out
    exact ⟨t, items, ht, hout, hlen, fun h => absurd h hb⟩

/-! ### In IDLE (R141, R142) -/

/-- Settles O26: the row is selected, and appends its diagnostic. -/
theorem orphanDataByte : Obligations.OrphanDataByte := by
  intro s v hm hrs
  simp only [exec, execDataOrphan, hm, hrs, State.dataNoStatus, State.diag]

/-- The high nibble of a status byte between `nib`0 and `nib`F (R84). -/
theorem nib_of_range {nib : U4} {st : Byte} (hlo : (nib ++ 0x0#4 : Byte) ≤ st) (hhi : st ≤ (nib ++ 0xF#4 : Byte)) :
    st.extractLsb' 4 4 = nib := by
  rw [BitVec.le_def, channel_toNat] at hlo hhi
  apply BitVec.eq_of_toNat_eq
  rw [toNat_field]
  simp at hlo hhi
  omega

theorem exec_dataRs {st : Byte} (hm : s.mp.mode = .idle) (hrs : s.mp.rs = some st) (v : U7) :
    exec (.dataRs v) s = .next (s.dataRunning st v) := by
  simp only [exec, execDataRs, hm, hrs]

/-- The one data byte of a message that is no control change puts its event on OUT (R141, R146). -/
theorem State.dataRunning_event {st : Byte} {nib : U4} {v : U7} {e : Event} (hnib : st.extractLsb' 4 4 = nib)
    (hb : nib ≠ 0xB#4) (hneed : need st = 1) (he : messageEvent s.cfg (nib ++ st.extractLsb' 0 4) v 0#7 = some e) :
    s.dataRunning st v = appended s [.ev e] := by
  subst hnib
  rw [channel_fields] at he
  rw [State.dataRunning, if_pos hneed, s.complete_event he hb]

/-- Settles O27: of the channel statuses only 0xCn and 0xDn collect one byte, and their events are those of R87. -/
theorem runningStatusDataByte : Obligations.RunningStatusDataByte := by
  intro s st v hm hrs hlo hhi
  obtain ⟨_, _, _, _, program, pressure, _⟩ := messageEvents s.cfg (st.extractLsb' 0 4) v 0#7
  rw [exec_dataRs hm hrs]
  refine congrArg _ ?_
  split
  case isTrue hC =>
    exact State.dataRunning_event (nib_of_range hC.1 hC.2) (by decide) (by grind [dataByteCounts st]) program
  case isFalse hC =>
    split
    case isTrue hD =>
      exact State.dataRunning_event (nib_of_range hD.1 hD.2) (by decide) (by grind [dataByteCounts st]) pressure
    case isFalse hD =>
      have twoBytes : need st ≠ 1 := by grind [dataByteCounts st]
      rw [State.dataRunning, if_neg twoBytes]

/-! ### In DATA (R143) -/

theorem need_cc (ch : U4) : need (0xB#4 ++ ch) = 2 := by
  rw [need, channel_toNat_div]
  rfl

/-- Settles O28: the first of two bytes, the last byte of an event, and the last byte of a control change. -/
theorem dataByteOfAMessage : Obligations.DataByteOfAMessage := by
  refine ⟨fun s v hm h => exec_dataData_first hm h v, ?event, ?cc⟩
  case event =>
    intro s v e hm h one two hb
    rw [exec_dataData_last hm h]
    refine congrArg _ (State.complete_event _ ?_ hb)
    by_cases hk : s.mp.k = 0
    · simp only [hk, if_true]; exact one hk
    · simp only [hk, if_false]; exact two hk
  case cc =>
    intro s v ch hm hk hcur
    refine ⟨_, exec_decodeCc s _ ch s.mp.d0 v, ?_⟩
    rw [exec_dataData_last hm (by rw [hk, hcur, need_cc]), State.complete_set_mp, hcur, State.complete_cc]
    simp [hk]

/-! ### In SYSEX and SXDISCARD (R144, R145) -/

theorem reachesMax_iff (m : SysexMax) (len : Nat) : reachesMax m len = true ↔ m = .bytes len := by
  cases m <;> simp [reachesMax, eq_comm]

theorem exec_dataSysex (hm : s.mp.mode = .sysex) (v : U7) : exec (.dataSysex v) s = .next (s.dataInSysex v) := by
  simp only [exec, execDataSysex, hm]

/-- Settles O29: the limit is reached exactly where SYSEX_MAX is the length of the payload. -/
theorem sysexDataByte : Obligations.SysexDataByte := by
  refine ⟨?below, ?reached, ?discarding⟩
  case below =>
    intro s v hm hmax
    rw [exec_dataSysex hm, State.dataInSysex, if_neg (mt (reachesMax_iff _ _).1 hmax)]
  case reached =>
    rintro s v _ hm hmax rfl
    rw [exec_dataSysex hm, State.dataInSysex, if_pos ((reachesMax_iff _ _).2 hmax), State.overflowDiag_bytes s hmax]
    rfl
  case discarding =>
    intro s v hm
    simp only [exec, execDataSxdiscard, hm]

end Sys2Proof.Machine
end

section
/-! SUPPORT. System bytes of the MIDI-1 stream (40_midi1_parser.md R155 to R170), in terms of what preempt leaves (R147). -/

namespace Sys2Proof.Machine

/-! ### System-common bytes (R155 to R162) -/

/-- Settles O31: each row is `awaitData` on what preempt leaves, 0xF5 under BUS_SELECT_EN, which preempt keeps. -/
theorem systemCommonWithData : Obligations.SystemCommonWithData := by
  intro s awaiting
  have awaits (b : Byte) : .next ((s.preempt b).awaitData b) = awaiting b := by rw [s.preempt_eq]; rfl
  refine ⟨awaits _, awaits _, awaits _, fun hbus => ?_, fun hbus => ?_⟩
  · have enabled : busSelectEn (s.preempt 0xF5#8).cfg = true := by rw [s.preempt_eq]; exact hbus
    rw [← awaits]
    exact congrArg _ (if_pos enabled)
  · have disabled : ¬ busSelectEn (afterPreempt s 0xF5#8).cfg = true := by
      rw [Bool.not_eq_true]; exact hbus
    simp only [exec, execBusselF5, State.busselF5, s.preempt_eq, if_neg disabled, State.diag_eq]

/-- 0xF7 leaves a SysEx, kept or discarded, to its own rule, and ends a message (R147, R162). -/
theorem afterPreempt_eox_mode (s : State) :
    (afterPreempt s 0xF7#8).mp.mode = if s.mp.mode = .data then .idle else s.mp.mode := by
  cases hm : s.mp.mode <;> simp [afterPreempt, preemptMode, hm]

/-- Settles O32: each row is its own rule on what preempt leaves; 0xF7 by the mode it finds there. -/
theorem systemCommonWithoutData : Obligations.SystemCommonWithoutData := by
  intro s
  refine ⟨?start, ?undef, ?tune, ?sysex, ?discarding, ?orphan⟩
  case start => simp only [exec, execSysexStart, State.sysexStart, s.preempt_eq]
  case undef => simp only [exec, execUndefF4, State.undefF4, s.preempt_eq, State.diag_eq]
  case tune => simp only [exec, execTunereq, State.tunereq, s.preempt_eq]; rfl
  case sysex =>
    intro hm
    rw [exec_eox_sysex hm]
    simp [afterPreempt, hm, scClearsRs, m1Group]
  case discarding =>
    intro hm
    have discarding : (afterPreempt s 0xF7#8).mp.mode = .sxdiscard := by rw [afterPreempt_eox_mode, hm]; rfl
    simp only [exec, execEox, State.eox, s.preempt_eq, discarding]
    simp [afterPreempt, preemptItems, hm]
  case orphan =>
    intro hm
    have idle : (afterPreempt s 0xF7#8).mp.mode = .idle := by
      rw [afterPreempt_eox_mode]
      obtain hm | hm := hm <;> simp [hm]
    simp only [exec, execEox, State.eox, s.preempt_eq, idle, State.diag_eq]

/-! ### Real-time bytes (R163 to R170) -/

/-- Settles O33: each row appends its item to OUT; no real-time event is a control change, so `deliver` is `emit`. -/
theorem realTimeByte : Obligations.RealTimeByte :=
  fun _ => ⟨rfl, rfl, rfl, rfl, rfl, rfl, rfl, rfl⟩

end Sys2Proof.Machine
end

section
/-! SUPPORT. A channel message from any state (40_midi1_parser.md R173): its status byte, the first of two data bytes and the
last data byte, with real-time bytes between. -/

namespace Sys2Proof.Machine

variable {s : State} {st : Byte}

/-- A channel status collects one data byte or two (R86). -/
theorem need_of_channel (hlo : 0x80#8 ≤ st) (hhi : st ≤ 0xEF#8) : need st = 1 ∨ need st = 2 := by
  have := need_pos_of_channel hlo hhi
  grind [dataByteCounts st]

/-- The row of a channel status byte is `startChannel` of it, whatever its nibble (R148 to R154). -/
theorem exec_decodeByte_channel (s : State) (sel : DataRow) {nib : U4} (ch : U4) (hlo : 0x8#4 ≤ nib) (hhi : nib ≤ 0xE#4) :
    exec (decodeByte sel (nib ++ ch)) s = .next (s.startChannel (nib ++ ch)) := by
  have hlo : 8 ≤ nib.toNat := hlo
  have hhi : nib.toNat ≤ 14 := hhi
  rw [decodeByte_channel, show nib = BitVec.ofNat 4 nib.toNat by simp]
  generalize nib.toNat = n at hlo hhi
  interval_cases n <;> rfl

/-- The byte port runs a channel status byte's row (R84, R140). -/
theorem exec_byte_channel (s : State) (hlo : 0x80#8 ≤ st) (hhi : st ≤ 0xEF#8) :
    exec (.byte st) s = .next (s.startChannel st) := by
  have hlo : 0x80 ≤ st.toNat := hlo
  have hhi : st.toNat ≤ 0xEF := hhi
  have hnib : (st.extractLsb' 4 4).toNat = st.toNat / 16 := by rw [toNat_field]; omega
  have row := exec_decodeByte_channel s s.dataRow (st.extractLsb' 0 4) (show 8 ≤ (st.extractLsb' 4 4).toNat by omega)
    (show (st.extractLsb' 4 4).toNat ≤ 14 by omega)
  rw [channel_fields] at row
  exact (execByte_row s s.dataRow_selected st).trans row

/-- In DATA the byte port runs DATA.DATA for a data byte (R140, R143). -/
theorem exec_byte_data (hm : s.mp.mode = .data) (d : U7) : exec (.byte (0#1 ++ d)) s = exec (.dataData d) s :=
  (execByte_row s (sel := .data) hm _).trans (congrArg (exec · s) (decodeByte_data .data d))

/-- What a channel status byte leaves, and real-time bytes after it (R147, R173). -/
def State.begun (s : State) (st : Byte) (r : List Byte) : State :=
  { s with
    mp := ⟨.data, some st, st, 0, s.mp.d0, if s.mp.mode = .sysex then [] else s.mp.sx⟩
    out := s.out ++ preemptItems s st ++ realTimeItems s.cfg r }

theorem State.startChannel_realTime (s : State) (hhi : st ≤ 0xEF#8) (r : List Byte) :
    appended (s.startChannel st) (realTimeItems (s.startChannel st).cfg r) = s.begun st r := by
  have hb : st ≠ 0xF7#8 := by rintro rfl; exact absurd hhi (by decide)
  rw [State.startChannel_eq]
  simp [appended, afterPreempt, State.begun, hb]

/-- A channel status byte and real-time bytes in front of a run. -/
theorem execAll_begun (s : State) (hlo : 0x80#8 ≤ st) (hhi : st ≤ 0xEF#8) {r : List Byte} (hr : ∀ b ∈ r, 0xF8#8 ≤ b)
    (rest : List Instr) : execAll (.byte st :: (r.map .byte ++ rest)) s = execAll rest (s.begun st r) := by
  rw [execAll_cons (exec_byte_channel s hlo hhi), execAll_realTime rest r _ hr, s.startChannel_realTime hhi]

/-- The event of a message of one data byte reads no second one (R87). -/
theorem messageEvent_of_need_one (cfg : Word) (h : need st = 1) (d1 d2 d2' : U7) :
    messageEvent cfg st d1 d2 = messageEvent cfg st d1 d2' := by
  unfold need at h
  unfold messageEvent
  split at h
  case h_8 hF =>
    simp only [hF]
    split at h <;> simp_all [systemEvent]
  all_goals simp_all

theorem State.complete_of_need_one (s : State) (h : need st = 1) (d1 d2 d2' : U7) :
    s.complete st d1 d2 = s.complete st d1 d2' := by
  rw [State.complete, messageEvent_of_need_one s.cfg h d1 d2 d2']
  rfl

/-- The last data byte of one. -/
theorem execAll_begun_one (s : State) (hneed : need st = 1) (d1 d2 : U7) (r1 r2 : List Byte) :
    execAll [.byte (0#1 ++ d1)] (s.begun st r1) = .next ((beforeEvent s st d1 r1 r2).complete st d1 d2) := by
  have last := exec_dataData_last (s := s.begun st r1) rfl hneed.symm d1
  rw [execAll_cons ((exec_byte_data rfl d1).trans last)]
  rw [State.complete_of_need_one _ hneed d1 d2 0#7]
  simp [execAll, State.begun, beforeEvent, hneed]

/-- Both data bytes of two, and real-time bytes between them. -/
theorem execAll_begun_two (s : State) (hneed : need st = 2) (d1 d2 : U7) {r1 r2 : List Byte} (hr : ∀ b ∈ r2, 0xF8#8 ≤ b) :
    execAll (.byte (0#1 ++ d1) :: (r2.map .byte ++ [.byte (0#1 ++ d2)])) (s.begun st r1) =
      .next ((beforeEvent s st d1 r1 r2).complete st d1 d2) := by
  have first := exec_dataData_first (s := s.begun st r1) rfl (show 0 + 1 ≠ need st by rw [hneed]; decide) d1
  rw [execAll_cons ((exec_byte_data rfl d1).trans first), execAll_realTime _ r2 _ hr]
  rw [execAll_cons ((exec_byte_data rfl d2).trans (exec_dataData_last rfl hneed.symm d2))]
  simp [execAll, State.begun, beforeEvent, hneed, realTimeItems, appended]

/-- Settles O34: the status byte begins the message from any state, its data bytes complete it in `beforeEvent`. -/
theorem recoveryFromAnyState : Obligations.RecoveryFromAnyState := by
  intro s st d1 d2 r1 r2 hlo hhi hr1 hr2
  have completed_mp := (beforeEvent s st d1 r1 r2).complete_mp st d1 d2
  have collects : need st ≠ 0 := Nat.one_le_iff_ne_zero.1 (need_pos_of_channel hlo hhi)
  refine ⟨(beforeEvent s st d1 r1 r2).complete st d1 d2, ?run, by rw [completed_mp]; rfl, by rw [completed_mp]; rfl,
    State.complete_done _ d1 d2 collects⟩
  rw [List.cons_append, List.map_cons, List.map_append, execAll_begun s hlo hhi hr1, List.map_cons]
  obtain hneed | hneed := need_of_channel hlo hhi
  · rw [if_neg (by omega)]
    exact execAll_begun_one s hneed d1 d2 r1 r2
  · rw [if_pos hneed, List.map_append]
    exact execAll_begun_two s hneed d1 d2 hr2

end Sys2Proof.Machine
end

section
/-! SUPPORT. The packet port and the word framer (41_ump_framer.md R200 to R204): what PACKET answers by the packet's length,
what WORD answers by what the framer holds, and the words of one packet given one by one. -/

namespace Sys2Proof.Machine

variable {s : State} {w w0 : Word} {rest : List Word} {i : Instr}

/-! ### The packet port (R201 to R203) -/

/-- A packet and the row it decodes to answer one and the same state (R204, R360). -/
theorem packet_answers_row (h : decodeUmp w0 rest = .ok i) :
    ∃ t, packet w0 rest s = .next t ∧ exec i s = .next t := by
  obtain ⟨t, ht, _⟩ := packet_spec (s := s) w0 rest
  exact ⟨t, ht, (exec_packet_row s h).symm.trans ht⟩

/-- Settles O19: PACKET runs the dispatch of R204, which always answers. -/
theorem packetRunsItsRow : Obligations.PacketRunsItsRow :=
  fun _ _ _ _ h => packet_answers_row h

/-- Settles O20: the length test is the first thing `packet` makes. -/
theorem wrongLengthPacketIsDropped : Obligations.WrongLengthPacketIsDropped :=
  fun _ _ _ hlen => if_pos hlen

/-! ### The word framer (R200) -/

/-- A packet of one word goes to the packet port at once. -/
theorem exec_word_single (hbuf : s.wf.buf = []) (hwc : wc (mtOf w) = 1) : exec (.word w) s = packet w [] s := by
  simp only [exec, execWord, hbuf, if_pos hwc]

/-- The first word of a longer packet is stored with the packet's word count. -/
theorem exec_word_first (hbuf : s.wf.buf = []) (hwc : wc (mtOf w) ≠ 1) :
    exec (.word w) s = .next { s with wf := ⟨[w], wc (mtOf w)⟩ } := by
  simp only [exec, execWord, hbuf, if_neg hwc]

/-- A word that leaves the packet incomplete is appended. -/
theorem exec_word_more (hbuf : s.wf.buf = w0 :: rest) (hneed : rest.length + 2 ≠ s.wf.need) :
    exec (.word w) s = .next { s with wf := ⟨w0 :: rest ++ [w], s.wf.need⟩ } := by
  have incomplete : ¬ (w0 :: rest ++ [w]).length = s.wf.need := by simpa using hneed
  simp only [exec, execWord, hbuf, if_neg incomplete]

/-- The last word empties the framer and sends the whole packet to the packet port. -/
theorem exec_word_last (hbuf : s.wf.buf = w0 :: rest) (hneed : rest.length + 2 = s.wf.need) :
    exec (.word w) s = packet w0 (rest ++ [w]) { s with wf := ⟨[], 0⟩ } := by
  have complete : (w0 :: rest ++ [w]).length = s.wf.need := by simpa using hneed
  simp only [exec, execWord, hbuf, if_pos complete]

/-- Settles O21: the framer's four cases; a packet that decodes has the word count of its message type. -/
theorem wordFramer : Obligations.WordFramer := by
  refine ⟨?single, fun _ _ => exec_word_first, fun _ _ _ _ => exec_word_more, ?last⟩
  case single =>
    intro s w i hbuf hdec
    obtain ⟨hlen, _⟩ := decodeUmp_eq_ok.1 hdec
    rw [exec_word_single hbuf hlen.symm]
    exact packet_answers_row hdec
  case last =>
    intro s w w0 rest i hbuf hneed hdec
    rw [exec_word_last hbuf hneed]
    exact packet_answers_row hdec

/-! ### The words of a packet, one by one (R200, R201, C6) -/

theorem execAll_singleton (i : Instr) (s : State) : execAll [i] s = exec i s := by
  cases h : exec i s <;> simp [execAll, h]

/-- With the first words of a packet in the framer, the words still missing bring the whole packet to the packet port. -/
theorem execAll_words (s : State) (w0 : Word) (count : Nat) (ws : List Word) :
    ∀ (read : List Word) (w : Word), read.length + ws.length + 2 = count →
      execAll ((w :: ws).map .word) { s with wf := ⟨w0 :: read, count⟩ } =
        packet w0 (read ++ w :: ws) { s with wf := ⟨[], 0⟩ } := by
  induction ws with
  | nil =>
    intro read w hneed
    rw [List.map_singleton, execAll_singleton]
    exact exec_word_last rfl hneed
  | cons w' ws ih =>
    intro read w hneed
    rw [List.length_cons] at hneed
    have more := exec_word_more (w := w) (s := { s with wf := ⟨w0 :: read, count⟩ }) rfl
      (show read.length + 2 ≠ count by omega)
    have whole := ih (read ++ [w]) w' (by rw [List.length_append, List.length_singleton]; omega)
    rw [List.append_assoc] at whole
    rw [List.map_cons, execAll_cons more]
    exact whole

/-- Settles O22: one word goes to the packet port at once, and of more the first is stored and the others complete it. -/
theorem wordPortEqualsPacketPort : Obligations.WordPortEqualsPacketPort := by
  intro s w0 rest hwf hlen
  have hbuf : s.wf.buf = [] := congrArg Wf.buf hwf
  cases rest with
  | nil =>
    rw [List.map_singleton, execAll_singleton]
    exact exec_word_single hbuf hlen.symm
  | cons w ws =>
    have hlen : ws.length + 2 = wc (mtOf w0) := hlen
    have emptied : { s with wf := ⟨[], 0⟩ } = s := by rw [← hwf]
    have whole := execAll_words s w0 (wc (mtOf w0)) ws [] w (by rw [← hlen, List.length_nil, Nat.zero_add])
    rw [emptied] at whole
    rw [List.map_cons, execAll_cons (exec_word_first hbuf (by omega))]
    exact whole

end Sys2Proof.Machine
end

section
/-! SUPPORT. UMP messages without cross-packet state (42_ump_messages.md R220 to R268): what a row behind a range check
answers, said once, and each message type by it. -/

namespace Sys2Proof.Machine

variable {s : State} {i : Instr} {bad : Bool} {e : Event} {g ch : U4} {b1 b2 : Byte}

/-! ### A row behind a range check (R220, R363) -/

theorem exec_range_of_bad (row : exec i s = .next (s.deliverChecked (word0 i) bad e)) (hbad : bad = true) :
    exec i s = .next (appended s [.dg .range (word0 i)]) := by
  rw [row, State.deliverChecked, if_pos hbad, State.diag_eq]

theorem exec_deliver_of_not_bad (row : exec i s = .next (s.deliverChecked (word0 i) bad e)) (hbad : bad = false) :
    exec i s = .next (s.deliver e) := by
  rw [row, State.deliverChecked, if_neg (by rw [hbad]; decide)]

/-- A checked row whose event goes straight to OUT appends RANGE with its first word, or the event. -/
theorem exec_range_or_event (row : exec i s = .next (s.deliverChecked (word0 i) bad e))
    (direct : s.deliver e = appended s [.ev e]) :
    exec i s = .next (appended s [if bad = true then .dg .range (word0 i) else .ev e]) := by
  cases hbad : bad with
  | true => exact exec_range_of_bad row hbad
  | false => rw [exec_deliver_of_not_bad row hbad, direct]; rfl

/-! ### MT 0x0 (R221 to R224) -/

/-- Settles O36: no utility message is range-checked, and none of their events is a control change. -/
theorem utilityMessages : Obligations.UtilityMessages :=
  fun _ _ _ _ _ => ⟨rfl, rfl, rfl, rfl⟩

/-! ### MT 0x1 (R227 to R238) -/

theorem exec_u1Bussel_of_enabled (h : s.cfg.getLsbD 5 = true) : exec (.u1Bussel g b1 b2) s =
    .next (s.deliverChecked (word0 (.u1Bussel g b1 b2)) (b1.getLsbD 7) (.busSelect g (b1.extractLsb' 0 7))) :=
  congrArg Host.Outcome.next (if_pos h)

theorem exec_u1Bussel_of_disabled (h : s.cfg.getLsbD 5 = false) : exec (.u1Bussel g b1 b2) s =
    .next (appended s [.dg .unsupported (word0 (.u1Bussel g b1 b2))]) :=
  congrArg Host.Outcome.next (if_neg (by rw [busSelectEn, h]; decide))

/-- Settles O37: a range check for each row with data bytes, behind BUS_SELECT_EN for 0xF5; the others append their item. -/
theorem systemMessagesInUmp : Obligations.SystemMessagesInUmp := by
  intro s g b1 b2 st
  refine ⟨exec_range_or_event rfl rfl, exec_range_or_event rfl rfl, exec_range_or_event rfl rfl, ?bussel,
    rfl, rfl, rfl, rfl, rfl, rfl, rfl, rfl⟩
  cases h : s.cfg.getLsbD 5 with
  | true => exact exec_range_or_event (exec_u1Bussel_of_enabled h) rfl
  | false => exact exec_u1Bussel_of_disabled h

/-! ### MT 0x2 (R241 to R248) -/

/-- Settles O38: a range check for each opcode that is decoded, UNSUPPORTED for the two rows of the others. -/
theorem channelVoiceInUmp : Obligations.ChannelVoiceInUmp := by
  intro s g ch b1 b2 op d1 d2
  exact ⟨exec_range_or_event rfl rfl, exec_range_or_event rfl rfl, exec_range_or_event rfl rfl,
    exec_range_or_event rfl rfl, exec_range_or_event rfl rfl, exec_range_or_event rfl rfl, rfl, rfl⟩

theorem exec_u2Cc (s : State) (g ch : U4) (b1 b2 : Byte) : exec (.u2Cc g ch b1 b2) s =
    .next (s.deliverChecked (word0 (.u2Cc g ch b1 b2)) (b1.getLsbD 7 || b2.getLsbD 7)
      (.controlChange1 g ch (b1.extractLsb' 0 7) (b2.extractLsb' 0 7))) := rfl

/-- Settles O39: past the range check the event is delivered to the RA, which runs the row of its controller (R310). -/
theorem controlChangeInUmp : Obligations.ControlChangeInUmp := by
  refine ⟨fun s g ch b1 b2 hbad => ?range, fun s g ch b1 b2 h1 h2 => ?routed⟩
  case range => exact exec_range_of_bad (exec_u2Cc s g ch b1 b2) ((Bool.or_eq_true _ _).mpr hbad)
  case routed =>
    have delivered := exec_deliver_of_not_bad (exec_u2Cc s g ch b1 b2) (Bool.or_eq_false_iff.mpr ⟨h1, h2⟩)
    exact ⟨_, delivered, exec_decodeCc s g ch _ _⟩

/-! ### MT 0x4 (R251 to R266) -/

/-- Settles O40: a range check of the note or index byte, but for opcode 0x7 and the two rows of w1 alone. -/
theorem midi2ChannelVoice : Obligations.Midi2ChannelVoice := by
  intro s g ch b1 b2 w1 note checked
  exact ⟨exec_range_or_event rfl rfl, exec_range_or_event rfl rfl, exec_range_or_event rfl rfl, rfl,
    exec_range_or_event rfl rfl, exec_range_or_event rfl rfl, exec_range_or_event rfl rfl,
    exec_range_or_event rfl rfl, rfl, rfl, exec_range_or_event rfl rfl⟩

/-- The event of a delta goes straight to OUT (R255, R325). -/
theorem State.deliver_relativeEvent (s : State) (g ch : U4) (k : ParamKind) (p : U14) (w1 : Word) :
    s.deliver (relativeEvent g ch k p w1) = appended s [.ev (relativeEvent g ch k p w1)] := by
  rw [relativeEvent]
  split <;> rfl

/-- Settles O41: negation of a word is two's complement, so `relativeEvent` gives the magnitude of a negative delta. -/
theorem midi2Parameters : Obligations.Midi2Parameters := by
  intro s g ch b1 b2 w1 param checked delta
  have relative (k : ParamKind) : relativeEvent g ch k param w1 = delta k := rfl
  simp only [← relative]
  exact ⟨exec_range_or_event rfl rfl, exec_range_or_event rfl rfl,
    exec_range_or_event rfl (s.deliver_relativeEvent ..), exec_range_or_event rfl (s.deliver_relativeEvent ..)⟩

theorem programBad_iff (b2 : Byte) (w1 : Word) : programBad b2 w1 = true ↔
    w1.getLsbD 31 = true ∨ (b2.getLsbD 0 = true ∧ (w1.getLsbD 15 = true ∨ w1.getLsbD 7 = true)) := by
  simp only [programBad, Bool.or_eq_true, Bool.and_eq_true]

/-- The event of a program change goes straight to OUT (R263, R325). -/
theorem State.deliver_programEvent (s : State) (g ch : U4) (b2 : Byte) (w1 : Word) :
    s.deliver (programEvent g ch b2 w1) = appended s [.ev (programEvent g ch b2 w1)] := by
  rw [programEvent]
  split <;> rfl

/-- Settles O42: `programBad` is the check of the statement, and `programEvent` records the bank by bankValid. -/
theorem midi2ProgramChange : Obligations.Midi2ProgramChange := by
  intro s g ch b1 b2 w1
  have answer := exec_range_or_event (i := .u4Progchg g ch b1 b2 w1) rfl (s.deliver_programEvent g ch b2 w1)
  simp only [programBad_iff] at answer
  rw [answer, programEvent, apply_ite Item.ev]
  rfl

/-! ### MT 0x6 to 0xF (R268) -/

/-- Settles O43: every row appends its diagnostic, and reads no word but the first. -/
theorem reservedMessageTypes : Obligations.ReservedMessageTypes :=
  fun _ _ _ _ _ _ => ⟨rfl, rfl, rfl, rfl, rfl, rfl, rfl, rfl, rfl, rfl⟩

end Sys2Proof.Machine
end

section
/-! SUPPORT. UMP SysEx reassembly (43_ump_sysex.md R270 to R286): what a packet does with its payload,
by its group's buffer and SYSEX_MAX, for SysEx7 and then for SysEx8. -/

namespace Sys2Proof.Machine

variable {s : State} {g n : U4} {m : Nat}

/-! ### The limit test (R276) -/

theorem ite_exceedsMax_of_within {α : Type} {max : SysexMax} {len : Nat} (h : within max len) (a b : α) :
    (if exceedsMax max len = true then a else b) = b := by
  rw [exceedsMax_of_within h]; rfl

theorem ite_exceedsMax_of_lt {α : Type} {max : SysexMax} {len : Nat} (hmax : max = .bytes m) (h : m < len) (a b : α) :
    (if exceedsMax max len = true then a else b) = a := by
  rw [hmax, exceedsMax_of_lt h]; rfl

/-- What the packet that would cross the limit leaves but for its buffer: `s` with SYSEX_OVERFLOW appended (R276). -/
abbrev overflowed (s : State) (m : Nat) : State := appended s [.dg .sysexOverflow (BitVec.ofNat 32 m)]

/-! ### SysEx7, with a payload that passes R270's checks -/

section Sysex7

variable {w0 w1 : Word} {b1 b2 : Byte} {p buf : List U7} {i : Instr}

theorem State.sx7Complete_of_within (h : within s.sysexMax p.length) :
    s.sx7Complete g p = appended s [.ev (.sysEx7 g p)] :=
  ite_exceedsMax_of_within h _ _

theorem State.sx7Complete_of_lt (hmax : s.sysexMax = .bytes m) (h : m < p.length) :
    s.sx7Complete g p = overflowed s m :=
  (ite_exceedsMax_of_lt hmax h _ _).trans (s.overflowDiag_bytes hmax)

theorem State.sx7Start_of_within (h : within s.sysexMax p.length) : s.sx7Start g p = s.setSx7 g (some p) :=
  (ite_exceedsMax_of_within h _ _).trans (s.setSx7_setSx7 g none (some p))

theorem State.sx7Start_of_lt (hmax : s.sysexMax = .bytes m) (h : m < p.length) :
    s.sx7Start g p = (overflowed s m).setSx7 g none :=
  (ite_exceedsMax_of_lt hmax h _ _).trans ((s.setSx7 g none).overflowDiag_bytes hmax)

theorem State.sx7Continue_of_closed (hbuf : s.sx7At g = none) :
    s.sx7Continue w0 g p = appended s [.dg .sysexSequence w0] := by
  rw [State.sx7Continue, hbuf, State.diag_eq]

theorem State.sx7Continue_of_within (hbuf : s.sx7At g = some buf) (h : within s.sysexMax (buf.length + p.length)) :
    s.sx7Continue w0 g p = s.setSx7 g (some (buf ++ p)) := by
  rw [State.sx7Continue, hbuf]
  exact ite_exceedsMax_of_within h _ _

theorem State.sx7Continue_of_lt (hbuf : s.sx7At g = some buf) (hmax : s.sysexMax = .bytes m)
    (h : m < buf.length + p.length) : s.sx7Continue w0 g p = (overflowed s m).setSx7 g none := by
  rw [State.sx7Continue, hbuf]
  exact (ite_exceedsMax_of_lt hmax h _ _).trans (congrArg (State.setSx7 · g none) (s.overflowDiag_bytes hmax))

theorem State.sx7End_of_closed (hbuf : s.sx7At g = none) :
    s.sx7End w0 g p = appended s [.dg .sysexSequence w0] := by
  rw [State.sx7End, hbuf, State.diag_eq]

theorem State.sx7End_of_within (hbuf : s.sx7At g = some buf) (h : within s.sysexMax (buf.length + p.length)) :
    s.sx7End w0 g p = (appended s [.ev (.sysEx7 g (buf ++ p))]).setSx7 g none := by
  rw [State.sx7End, hbuf]
  exact ite_exceedsMax_of_within h _ _

theorem State.sx7End_of_lt (hbuf : s.sx7At g = some buf) (hmax : s.sysexMax = .bytes m)
    (h : m < buf.length + p.length) : s.sx7End w0 g p = (overflowed s m).setSx7 g none := by
  rw [State.sx7End, hbuf]
  exact (ite_exceedsMax_of_lt hmax h _ _).trans ((s.setSx7 g none).overflowDiag_bytes hmax)

/-- The four decoded statuses of MT 0x3 (R270). -/
def IsSysex7 (g n : U4) (b1 b2 : Byte) (w1 : Word) (i : Instr) : Prop :=
  i = .u3Complete g n b1 b2 w1 ∨ i = .u3Start g n b1 b2 w1 ∨ i = .u3Continue g n b1 b2 w1 ∨ i = .u3End g n b1 b2 w1

/-- Without a payload each is dropped with RANGE, its buffer not looked at (R270, R363). -/
theorem exec_sysex7_range (hi : IsSysex7 g n b1 b2 w1 i) (h : sx7Payload n b1 b2 w1 = none) :
    exec i s = .next (appended s [.dg .range (word0 i)]) := by
  obtain rfl | rfl | rfl | rfl := hi
  · simp only [exec, execU3Complete, h]; rfl
  · simp only [exec, execU3Start, h]; rfl
  · simp only [exec, execU3Continue, h]; rfl
  · simp only [exec, execU3End, h]; rfl

theorem exec_u3Complete (h : Sysex7Payload n b1 b2 w1 p) :
    exec (.u3Complete g n b1 b2 w1) s = .next (s.sx7Complete g p) := by
  simp only [exec, execU3Complete, sx7Payload_of h]

theorem exec_u3Start (h : Sysex7Payload n b1 b2 w1 p) :
    exec (.u3Start g n b1 b2 w1) s = .next (s.sx7Start g p) := by
  simp only [exec, execU3Start, sx7Payload_of h]

theorem exec_u3Continue (h : Sysex7Payload n b1 b2 w1 p) :
    exec (.u3Continue g n b1 b2 w1) s = .next (s.sx7Continue (word0 (.u3Continue g n b1 b2 w1)) g p) := by
  simp only [exec, execU3Continue, sx7Payload_of h]; rfl

theorem exec_u3End (h : Sysex7Payload n b1 b2 w1 p) :
    exec (.u3End g n b1 b2 w1) s = .next (s.sx7End (word0 (.u3End g n b1 b2 w1)) g p) := by
  simp only [exec, execU3End, sx7Payload_of h]; rfl

end Sysex7

/-- Settles O44: a check that fails leaves no payload, and U3.OTHER makes none. -/
theorem sysex7Checks : Obligations.Sysex7Checks :=
  ⟨fun _ _ _ _ _ _ _ hi hbad => exec_sysex7_range hi (sx7Payload_none hbad), fun _ _ _ _ _ _ _ => rfl⟩

/-- Settles O45: each packet by whether its payload is within SYSEX_MAX. -/
theorem sysex7CompleteAndStart : Obligations.Sysex7CompleteAndStart := by
  intro s g n b1 b2 w1 p hp
  rw [exec_u3Complete hp, exec_u3Start hp]
  refine ⟨fun hin => ?within, fun m hmax hlt => ?overflow⟩
  case within =>
    rw [State.sx7Complete_of_within hin, State.sx7Start_of_within hin]
    exact ⟨rfl, _, rfl, s.setSx7_update g _⟩
  case overflow =>
    rw [State.sx7Complete_of_lt hmax hlt, State.sx7Start_of_lt hmax hlt]
    exact ⟨rfl, _, rfl, (overflowed s m).setSx7_update g none⟩

/-- Settles O46: each packet by the group's buffer, then by whether the assembled payload is within SYSEX_MAX. -/
theorem sysex7ContinueAndEnd : Obligations.Sysex7ContinueAndEnd := by
  intro s g n b1 b2 w1 p hp
  refine ⟨fun hbuf => ?closed, fun buf hbuf hin => ?within, fun buf m i hbuf hmax hlt hi => ?overflow⟩
  case closed =>
    rw [exec_u3Continue hp, exec_u3End hp, State.sx7Continue_of_closed hbuf, State.sx7End_of_closed hbuf]
    exact ⟨rfl, rfl⟩
  case within =>
    rw [exec_u3Continue hp, exec_u3End hp, State.sx7Continue_of_within hbuf hin, State.sx7End_of_within hbuf hin]
    exact ⟨⟨_, rfl, s.setSx7_update g _⟩, _, rfl, State.setSx7_update _ g none⟩
  case overflow =>
    refine ⟨(overflowed s m).setSx7 g none, ?_, State.setSx7_update _ g none⟩
    obtain rfl | rfl := hi
    · rw [exec_u3Continue hp, State.sx7Continue_of_lt hbuf hmax hlt]
    · rw [exec_u3End hp, State.sx7End_of_lt hbuf hmax hlt]

/-! ### SysEx8, with a payload that passes R280's check -/

section Sysex8

variable {w0 w1 w2 w3 : Word} {b1 b2 stream : Byte} {p : List Byte} {buf : Sx8} {i : Instr}

theorem State.sx8Complete_of_within (h : within s.sysexMax p.length) :
    s.sx8Complete g stream p = appended s [.ev (.sysEx8 g stream p)] :=
  ite_exceedsMax_of_within h _ _

theorem State.sx8Complete_of_lt (hmax : s.sysexMax = .bytes m) (h : m < p.length) :
    s.sx8Complete g stream p = overflowed s m :=
  (ite_exceedsMax_of_lt hmax h _ _).trans (s.overflowDiag_bytes hmax)

theorem State.sx8Start_of_within (h : within s.sysexMax p.length) :
    s.sx8Start g stream p = s.setSx8 g (some ⟨stream, p⟩) :=
  (ite_exceedsMax_of_within h _ _).trans (s.setSx8_setSx8 g none (some ⟨stream, p⟩))

theorem State.sx8Start_of_lt (hmax : s.sysexMax = .bytes m) (h : m < p.length) :
    s.sx8Start g stream p = (overflowed s m).setSx8 g none :=
  (ite_exceedsMax_of_lt hmax h _ _).trans ((s.setSx8 g none).overflowDiag_bytes hmax)

theorem State.sx8Continue_of_closed (hbuf : s.sx8At g = none) :
    s.sx8Continue w0 g stream p = appended s [.dg .sysexSequence w0] := by
  rw [State.sx8Continue, hbuf, State.diag_eq]

theorem State.sx8Continue_of_stream_ne (hbuf : s.sx8At g = some buf) (hne : stream ≠ buf.stream) :
    s.sx8Continue w0 g stream p = appended s [.dg .sysexStream w0] := by
  rw [State.sx8Continue, hbuf, ← State.diag_eq]
  exact if_pos hne

theorem State.sx8Continue_of_within (hbuf : s.sx8At g = some buf)
    (h : within s.sysexMax (buf.payload.length + p.length)) :
    s.sx8Continue w0 g buf.stream p = s.setSx8 g (some ⟨buf.stream, buf.payload ++ p⟩) := by
  rw [State.sx8Continue, hbuf]
  exact (if_neg (not_not_intro rfl)).trans (ite_exceedsMax_of_within h _ _)

theorem State.sx8Continue_of_lt (hbuf : s.sx8At g = some buf) (hmax : s.sysexMax = .bytes m)
    (h : m < buf.payload.length + p.length) :
    s.sx8Continue w0 g buf.stream p = (overflowed s m).setSx8 g none := by
  rw [State.sx8Continue, hbuf]
  exact (if_neg (not_not_intro rfl)).trans ((ite_exceedsMax_of_lt hmax h _ _).trans
    (congrArg (State.setSx8 · g none) (s.overflowDiag_bytes hmax)))

theorem State.sx8End_of_closed (hbuf : s.sx8At g = none) :
    s.sx8End w0 g stream p = appended s [.dg .sysexSequence w0] := by
  rw [State.sx8End, hbuf, State.diag_eq]

theorem State.sx8End_of_stream_ne (hbuf : s.sx8At g = some buf) (hne : stream ≠ buf.stream) :
    s.sx8End w0 g stream p = appended s [.dg .sysexStream w0] := by
  rw [State.sx8End, hbuf, ← State.diag_eq]
  exact if_pos hne

theorem State.sx8End_of_within (hbuf : s.sx8At g = some buf)
    (h : within s.sysexMax (buf.payload.length + p.length)) : s.sx8End w0 g buf.stream p =
      (appended s [.ev (.sysEx8 g buf.stream (buf.payload ++ p))]).setSx8 g none := by
  rw [State.sx8End, hbuf]
  exact (if_neg (not_not_intro rfl)).trans (ite_exceedsMax_of_within h _ _)

theorem State.sx8End_of_lt (hbuf : s.sx8At g = some buf) (hmax : s.sysexMax = .bytes m)
    (h : m < buf.payload.length + p.length) : s.sx8End w0 g buf.stream p = (overflowed s m).setSx8 g none := by
  rw [State.sx8End, hbuf]
  exact (if_neg (not_not_intro rfl)).trans ((ite_exceedsMax_of_lt hmax h _ _).trans
    ((s.setSx8 g none).overflowDiag_bytes hmax))

theorem sx8Payload_none (h : n.toNat = 0 ∨ 14 < n.toNat) : sx8Payload n b2 w1 w2 w3 = none := if_pos h

/-- The four decoded statuses of MT 0x5 (R280). -/
def IsSysex8 (g n : U4) (b1 b2 : Byte) (w1 w2 w3 : Word) (i : Instr) : Prop :=
  i = .u5Complete g n b1 b2 w1 w2 w3 ∨ i = .u5Start g n b1 b2 w1 w2 w3 ∨
    i = .u5Continue g n b1 b2 w1 w2 w3 ∨ i = .u5End g n b1 b2 w1 w2 w3

/-- Without a payload each is dropped with RANGE, its buffer not looked at (R280, R363). -/
theorem exec_sysex8_range (hi : IsSysex8 g n b1 b2 w1 w2 w3 i) (h : sx8Payload n b2 w1 w2 w3 = none) :
    exec i s = .next (appended s [.dg .range (word0 i)]) := by
  obtain rfl | rfl | rfl | rfl := hi
  · simp only [exec, execU5Complete, h]; rfl
  · simp only [exec, execU5Start, h]; rfl
  · simp only [exec, execU5Continue, h]; rfl
  · simp only [exec, execU5End, h]; rfl

theorem exec_u5Complete (h : Sysex8Payload n b2 w1 w2 w3 p) :
    exec (.u5Complete g n stream b2 w1 w2 w3) s = .next (s.sx8Complete g stream p) := by
  simp only [exec, execU5Complete, sx8Payload_of h]

theorem exec_u5Start (h : Sysex8Payload n b2 w1 w2 w3 p) :
    exec (.u5Start g n stream b2 w1 w2 w3) s = .next (s.sx8Start g stream p) := by
  simp only [exec, execU5Start, sx8Payload_of h]

theorem exec_u5Continue (h : Sysex8Payload n b2 w1 w2 w3 p) : exec (.u5Continue g n stream b2 w1 w2 w3) s =
    .next (s.sx8Continue (word0 (.u5Continue g n stream b2 w1 w2 w3)) g stream p) := by
  simp only [exec, execU5Continue, sx8Payload_of h]; rfl

theorem exec_u5End (h : Sysex8Payload n b2 w1 w2 w3 p) : exec (.u5End g n stream b2 w1 w2 w3) s =
    .next (s.sx8End (word0 (.u5End g n stream b2 w1 w2 w3)) g stream p) := by
  simp only [exec, execU5End, sx8Payload_of h]; rfl

end Sysex8

/-- Settles O47: a check that fails leaves no payload, and U5.OTHER makes none. -/
theorem sysex8Checks : Obligations.Sysex8Checks :=
  ⟨fun _ _ _ _ _ _ _ _ _ hi hbad => exec_sysex8_range hi (sx8Payload_none hbad), fun _ _ _ _ _ _ _ _ _ => rfl⟩

/-- Settles O48: each packet by whether its payload is within SYSEX_MAX. -/
theorem sysex8CompleteAndStart : Obligations.Sysex8CompleteAndStart := by
  intro s g n stream b2 w1 w2 w3 p hp
  rw [exec_u5Complete hp, exec_u5Start hp]
  refine ⟨fun hin => ?within, fun m hmax hlt => ?overflow⟩
  case within =>
    rw [State.sx8Complete_of_within hin, State.sx8Start_of_within hin]
    exact ⟨rfl, _, rfl, s.setSx8_update g _⟩
  case overflow =>
    rw [State.sx8Complete_of_lt hmax hlt, State.sx8Start_of_lt hmax hlt]
    exact ⟨rfl, _, rfl, (overflowed s m).setSx8_update g none⟩

/-- Settles O49: each packet by the group's buffer, then by its stream, then by whether the assembled payload is within
SYSEX_MAX. -/
theorem sysex8ContinueAndEnd : Obligations.Sysex8ContinueAndEnd := by
  intro s g n stream b2 w1 w2 w3 p hp
  refine ⟨fun i hi => ⟨fun hbuf => ?closed, fun buf hbuf hne => ?stream, ?overflow⟩, ?within⟩
  case closed =>
    obtain rfl | rfl := hi
    · rw [exec_u5Continue hp, State.sx8Continue_of_closed hbuf]
    · rw [exec_u5End hp, State.sx8End_of_closed hbuf]
  case stream =>
    obtain rfl | rfl := hi
    · rw [exec_u5Continue hp, State.sx8Continue_of_stream_ne hbuf hne]
    · rw [exec_u5End hp, State.sx8End_of_stream_ne hbuf hne]
  case overflow =>
    rintro buf m hbuf rfl hmax hlt
    refine ⟨(overflowed s m).setSx8 g none, ?_, State.setSx8_update _ g none⟩
    obtain rfl | rfl := hi
    · rw [exec_u5Continue hp, State.sx8Continue_of_lt hbuf hmax hlt]
    · rw [exec_u5End hp, State.sx8End_of_lt hbuf hmax hlt]
  case within =>
    rintro buf hbuf rfl hin
    rw [exec_u5Continue hp, exec_u5End hp, State.sx8Continue_of_within hbuf hin, State.sx8End_of_within hbuf hin]
    exact ⟨⟨_, rfl, s.setSx8_update g _⟩, _, rfl, State.setSx8_update _ g none⟩

/-! ### One buffer at most (R286) -/

/-- Settles O50: the row of a packet is an `UmpStep` of the packet's group and message type. -/
theorem sysexBuffersAreIndependent : Obligations.SysexBuffersAreIndependent := by
  intro w0 rest i s t hdec ht
  obtain ⟨t', ht', step⟩ := packet_spec (s := s) w0 rest
  rw [exec_packet_row s hdec, ht] at ht'
  cases ht'
  exact ⟨step.sx7, step.sx8⟩

end Sys2Proof.Machine
end

section
/-! SUPPORT. The controllers of the parameter assembler one by one, and what a control change leaves alone
(44_rpn_nrpn.md R311 to R325). -/

namespace Sys2Proof.Machine

section
variable {s : State} {g ch : U4} {r : RaRec} {k : ParamKind} {p : U14}

/-- A record is written with items appended: the record and OUT are separate fields. -/
theorem appended_setRa (items : List Item) : appended (s.setRa g ch r) items = (appended s items).setRa g ch r := rfl

/-! ### Numbers (R311, R313) -/

/-- A number is complete when its kind and both halves are there (R33, R311). -/
theorem RaRec.number_eq_some {m l : U7} (hk : r.kind = some k) (hm : r.nMSB = some m) (hl : r.nLSB = some l) :
    r.number = some (k, m ++ l) := by
  rw [RaRec.number, hk, hm, hl]
  rfl

/-- It is not when one of the three is missing. -/
theorem RaRec.number_eq_none (h : r.kind = none ∨ r.nMSB = none ∨ r.nLSB = none) : r.number = none := by
  unfold RaRec.number
  split
  · simp_all
  · rfl

/-- Storing the MSB keeps the LSB of a number of the same kind, or of a record without one (R313). -/
theorem RaRec.storeNumber_msb (v : U7) : r.storeNumber k .msb v = RaRec.dropNull
    ⟨some k, some v, if r.kind ≠ none ∧ r.kind ≠ some k then none else r.nLSB, none, none⟩ := by
  rw [RaRec.storeNumber, apply_ite RaRec.nLSB]
  rfl

/-- Storing the LSB keeps the MSB in the same way (R313). -/
theorem RaRec.storeNumber_lsb (v : U7) : r.storeNumber k .lsb v = RaRec.dropNull
    ⟨some k, if r.kind ≠ none ∧ r.kind ≠ some k then none else r.nMSB, some v, none, none⟩ := by
  rw [RaRec.storeNumber, apply_ite RaRec.nMSB]
  rfl

/-! ### Data entry, increment and decrement on a complete number (R318 to R321) -/

/-- `if complete(r): emit` (R311), where it is complete. -/
theorem State.raEmit_of_some (hn : (s.raAt g ch).number = some (k, p)) (op : ParamOp) (val : ParamValue) :
    s.raEmit g ch op val = appended s [.ev (.paramNumber g ch k p op val)] := by
  rw [State.raEmit, hn]
  rfl

/-- A complete record emits the number it was written with, whatever its data entry. -/
theorem State.setRa_raEmit (m l : U7) (d e : Option U7) (op : ParamOp) (val : ParamValue) :
    (s.setRa g ch ⟨some k, some m, some l, d, e⟩).raEmit g ch op val =
      (appended s [.ev (.paramNumber g ch k (m ++ l) op val)]).setRa g ch ⟨some k, some m, some l, d, e⟩ := by
  have hn : ((s.setRa g ch ⟨some k, some m, some l, d, e⟩).raAt g ch).number = some (k, m ++ l) := by
    rw [State.setRa_raAt_same]
    exact RaRec.number_eq_some rfl rfl rfl
  rw [State.raEmit_of_some hn, appended_setRa]

section
variable {m l : U7} (hk : (s.raAt g ch).kind = some k) (hm : (s.raAt g ch).nMSB = some m)
  (hl : (s.raAt g ch).nLSB = some l)
include hk hm hl

/-- The data MSB is stored, the LSB is dropped, and CFG.DE_EMIT_ON_MSB says whether an event goes out (R318). -/
theorem State.raDataMsb_of_complete (v : U7) : s.raDataMsb g ch v =
    (appended s (if s.cfg.getLsbD 1 = true then [.ev (.paramNumber g ch k (m ++ l) .abs (.v7 v 0#7))] else [])).setRa
      g ch ⟨some k, some m, some l, some v, none⟩ := by
  simp only [State.raDataMsb, RaRec.number_eq_some hk hm hl, hk, hm, hl, State.setRa_cfg, State.setRa_raEmit,
    deEmitOnMsb]
  split
  · rfl
  · rw [appended_nil]

/-- The data LSB completes the data entry (R319). -/
theorem State.raDataLsb_of_complete {d : U7} (hd : (s.raAt g ch).dMSB = some d) (v : U7) : s.raDataLsb g ch v =
    (appended s [.ev (.paramNumber g ch k (m ++ l) .abs (.v7 d v))]).setRa g ch
      ⟨some k, some m, some l, some d, some v⟩ := by
  simp only [State.raDataLsb, RaRec.number_eq_some hk hm hl, hk, hm, hl, hd, State.setRa_raEmit]

end

/-- Data entry LSB that no data entry MSB came before is dropped (R319). -/
theorem State.raDataLsb_of_dMSB_none (hd : (s.raAt g ch).dMSB = none) (v : U7) : s.raDataLsb g ch v = s := by
  rw [State.raDataLsb, hd]
  cases (s.raAt g ch).number <;> rfl

/-! ### Reset all controllers (R322) -/

theorem State.raResetControllers_of_reset (h : s.cfg.getLsbD 4 = true) (v : U7) :
    s.raResetControllers g ch v = (appended s [.ev (.controlChange1 g ch 121#7 v)]).setRa g ch RaRec.empty := by
  rw [State.raResetControllers, cc121ResetsRa, if_pos h]
  rfl

theorem State.raResetControllers_of_keep (h : s.cfg.getLsbD 4 = false) (v : U7) :
    s.raResetControllers g ch v = appended s [.ev (.controlChange1 g ch 121#7 v)] := by
  rw [State.raResetControllers, cc121ResetsRa, h]
  rfl

end

/-- Settles O51: each controller writes `storeNumber` of its kind and half. -/
theorem numberControllers : Obligations.NumberControllers := by
  intro s g ch v r null msb lsb
  have msb_eq (k : ParamKind) : msb k = r.storeNumber k .msb v := (RaRec.storeNumber_msb v).symm
  have lsb_eq (k : ParamKind) : lsb k = r.storeNumber k .lsb v := (RaRec.storeNumber_lsb v).symm
  simp only [msb_eq, lsb_eq]
  have stored (k : ParamKind) (half : Half) : RaUpdate s g ch (r.storeNumber k half v) (s.raStore g ch k half v) :=
    s.setRa_update g ch _
  exact ⟨⟨_, rfl, stored _ _⟩, ⟨_, rfl, stored _ _⟩, ⟨_, rfl, stored _ _⟩, _, rfl, stored _ _⟩

/-- Settles O52: by whether the number is complete, and for the LSB by whether a data entry MSB is there. -/
theorem dataEntryControllers : Obligations.DataEntryControllers := by
  intro s g ch v
  refine ⟨fun k m l hk hm hl => ?complete, fun h => ?incomplete, fun hd => ?noMsb⟩
  case complete =>
    exact ⟨⟨_, congrArg Host.Outcome.next (State.raDataMsb_of_complete hk hm hl v), State.setRa_update _ g ch _⟩,
      fun d hd => ⟨_, congrArg Host.Outcome.next (State.raDataLsb_of_complete hk hm hl hd v),
        State.setRa_update _ g ch _⟩⟩
  case incomplete =>
    have hn := RaRec.number_eq_none h
    exact ⟨congrArg Host.Outcome.next (State.raDataMsb_of_none hn v),
      congrArg Host.Outcome.next (State.raDataLsb_of_none hn v)⟩
  case noMsb => exact congrArg Host.Outcome.next (State.raDataLsb_of_dMSB_none hd v)

/-- Settles O53: both controllers are `raEmit`, which emits when the number is complete. -/
theorem incrementAndDecrement : Obligations.IncrementAndDecrement := by
  intro s g ch v
  refine ⟨fun k m l hk hm hl => ?complete, fun h => ?incomplete⟩
  case complete =>
    have emits := State.raEmit_of_some (RaRec.number_eq_some hk hm hl)
    exact ⟨congrArg Host.Outcome.next (emits .inc _), congrArg Host.Outcome.next (emits .dec _)⟩
  case incomplete =>
    have silent := State.raEmit_of_none (RaRec.number_eq_none h)
    exact ⟨congrArg Host.Outcome.next (silent .inc _), congrArg Host.Outcome.next (silent .dec _)⟩

/-- Settles O54: controller 121 by CFG.CC121_RESETS_RA; RA.PASS is `emit`. -/
theorem passedThroughControllers : Obligations.PassedThroughControllers := by
  intro s g ch ctrl v
  refine ⟨fun h => ?reset, fun h => ?keep, rfl⟩
  case reset =>
    exact ⟨_, congrArg Host.Outcome.next (State.raResetControllers_of_reset h v), State.setRa_update _ g ch _⟩
  case keep => exact congrArg Host.Outcome.next (State.raResetControllers_of_keep h v)

/-- Settles O55: a control change is one record written and items appended (`controlChange_spec`); a packet writes RA
only for message type 0x2 (`UmpStep`). -/
theorem raRecordsAreIndependent : Obligations.RaRecordsAreIndependent := by
  refine ⟨fun g ch ctrl v s t ht => ?controlChange, fun w0 rest i s t hdec hmt ht => ?packet⟩
  case controlChange =>
    obtain ⟨r, items, _, spec⟩ := s.controlChange_spec g ch ctrl v
    rw [exec_decodeCc, spec] at ht
    cases ht
    obtain ⟨_, others, _⟩ := s.setRa_update g ch r
    exact ⟨others, rfl⟩
  case packet =>
    obtain ⟨t', ht', step⟩ := packet_spec (s := s) w0 rest
    rw [exec_packet_row s hdec, ht] at ht'
    cases ht'
    have not_mt2 : mtOf w0 ≠ 0x2#4 := by simp [mtOf, hmt]
    exact step.ra not_mt2

end Sys2Proof.Machine
end

section
/-! SUPPORT. The obligations of 45_control.md: CONFIG (R351) and the reserved tags (R352). -/

namespace Sys2Proof.Machine

/-! ### CONFIG -/

/-- The writable bits are the fields 5:0 and 11:8. -/
theorem cfgMask_getLsbD : ∀ n < 32,
    Config.cfgMask.getLsbD n = (decide (n ≤ 5) || (decide (8 ≤ n) && decide (n ≤ 11))) := by
  decide

/-- Settles O2: CONFIG leaves `State.configured`, whose CFG is the operand under `Config.cfgMask`. -/
theorem configWritesTheWritableBits : Obligations.ConfigWritesTheWritableBits := by
  intro v s
  refine ⟨v &&& Config.cfgMask, exec_config s v, fun n hn => ?_⟩
  rw [BitVec.getLsbD_and, cfgMask_getLsbD n hn]

/-! ### The reserved tags -/

section
variable (s : State)

theorem exec_tagRsvd5 : exec .tagRsvd5 s = .next (s.diag .unsupported 5#32) := rfl
theorem exec_tagRsvd6 : exec .tagRsvd6 s = .next (s.diag .unsupported 6#32) := rfl
theorem exec_tagRsvd7 : exec .tagRsvd7 s = .next (s.diag .unsupported 7#32) := rfl

end

/-- Settles O3: each row is `State.diag` of UNSUPPORTED and its tag, which appends to OUT alone. -/
theorem reservedTagsAreUnsupported : Obligations.ReservedTagsAreUnsupported :=
  fun s => ⟨exec_tagRsvd5 s, exec_tagRsvd6 s, exec_tagRsvd7 s⟩

end Sys2Proof.Machine
end

section
/-! SUPPORT. The obligations of 60_exceptions.md: no input stops the block (R360), and the numbers of the diagnostic codes
(R361). -/

namespace Sys2Proof.Machine

/-- Settles O7: with no transaction presented the step leaves the state as it is, and a transaction always answers. -/
theorem nothingStopsTheBlock : Obligations.NothingStopsTheBlock := by
  intro s
  obtain ⟨runsNext, waits⟩ := stepRunsTheNextTransaction
  cases hinp : s.inp with
  | nil => exact ⟨s, waits s hinp⟩
  | cons x rest =>
    rw [runsNext s x rest hinp]
    exact exec_decodeTxn_answers { s with inp := rest } x

/-- Settles O59: both lists are written out, and each number is evaluated. -/
theorem diagnosticNumbers : Obligations.DiagnosticNumbers := by
  unfold Obligations.DiagnosticNumbers
  decide

end Sys2Proof.Machine
end

section
/-! SUPPORT. The obligations of 70_reset_and_hazards.md: the items of a transaction (R402), and the start-of-run premises
(R405). -/

namespace Sys2Proof.Machine

/-! ### The items of a transaction (R402) -/

/-- `r` is a next state whose OUT is that of `s` with at most `n` items appended. -/
def AppendsAtMost (n : Nat) (s : State) (r : Result) : Prop :=
  ∃ t items, r = .next t ∧ t.out = s.out ++ items ∧ items.length ≤ n

section
variable {s t : State}

theorem AppendsAtMost.of_out_eq (h : t.out = s.out) : AppendsAtMost 0 s (.next t) :=
  ⟨t, [], rfl, by rw [h, List.append_nil], Nat.le_refl 0⟩

theorem AppendsAtMost.of_diag (c : DiagCode) (info : Word) : AppendsAtMost 1 s (.next (s.diag c info)) :=
  ⟨_, _, rfl, State.diag_out s c info, Nat.le_refl 1⟩

end

section
variable (s : State)

theorem exec_byte_appends (b : Byte) : AppendsAtMost 2 s (exec (.byte b) s) := by
  obtain ⟨t, items, ht, hout, hlen, _⟩ := itemsPerByte b s
  exact ⟨t, items, ht, hout, hlen⟩

theorem exec_word_appends (w : Word) : AppendsAtMost 1 s (exec (.word w) s) := by
  obtain ⟨t, items, ht, hout, hlen, _⟩ := execWord_spec s w
  exact ⟨t, items, ht, hout, hlen⟩

theorem exec_packet_appends (w0 : Word) (rest : List Word) : AppendsAtMost 1 s (exec (.packet w0 rest) s) := by
  obtain ⟨t, ht, step⟩ := packet_spec (s := s) w0 rest
  obtain ⟨items, hlen, hout⟩ := step.out
  exact ⟨t, items, ht, hout, hlen⟩

theorem exec_reset_appends : AppendsAtMost 0 s (exec .reset s) := .of_out_eq rfl

theorem exec_config_appends (v : Word) : AppendsAtMost 0 s (exec (.config v) s) := .of_out_eq rfl

end

/-- Settles O9: tag by tag, each by the bound of its transaction. -/
theorem everyTransactionEndsWithItsItems : Obligations.EveryTransactionEndsWithItsItems := by
  rintro ⟨tag, len, data⟩ s
  unfold decodeTxn
  split <;> rename_i htag
  · obtain rfl : tag = 0 := BitVec.eq_of_toNat_eq htag
    exact exec_byte_appends s _
  · obtain rfl : tag = 1 := BitVec.eq_of_toNat_eq htag
    exact exec_word_appends s _
  · obtain rfl : tag = 2 := BitVec.eq_of_toNat_eq htag
    exact exec_packet_appends s _ _
  · obtain rfl : tag = 3 := BitVec.eq_of_toNat_eq htag
    exact exec_reset_appends s
  · obtain rfl : tag = 4 := BitVec.eq_of_toNat_eq htag
    exact exec_config_appends s _
  · obtain rfl : tag = 5 := BitVec.eq_of_toNat_eq htag
    exact AppendsAtMost.of_diag _ _
  · obtain rfl : tag = 6 := BitVec.eq_of_toNat_eq htag
    exact AppendsAtMost.of_diag _ _
  · have last : tag.toNat = 7 := by
      simp only [imp_false] at *
      omega
    obtain rfl : tag = 7 := BitVec.eq_of_toNat_eq last
    exact AppendsAtMost.of_diag _ _

/-! ### The start-of-run premises (R405) -/

theorem powerOn_reset : PowerOn State.reset := ⟨⟨rfl, rfl, rfl, rfl, rfl⟩, rfl⟩

theorem exec_reset_quiescent (s : State) : ∃ t, exec .reset s = .next t ∧ Quiescent s.cfg t :=
  ⟨_, rfl, rfl, rfl, rfl, rfl, rfl⟩

/-- CONFIG writes no element but CFG, which it masks (R351). -/
theorem Quiescent.configured {cfg : Word} {s : State} (h : Quiescent cfg s) (v : Word) :
    Quiescent (v &&& Config.cfgMask) (s.configured v) := by
  obtain ⟨_, mp, wf, up, ra⟩ := h
  exact ⟨rfl, mp, wf, up, ra⟩

/-- Settles O60: `State.reset` is PowerOn, and what CONFIG leaves after PowerOn is `State.configured`, OUT still empty. -/
theorem startOfRunPremises : Obligations.StartOfRunPremises := by
  refine ⟨powerOn_reset, exec_reset_quiescent, ?configured⟩
  rintro c s ⟨p, ⟨quiescent, out_nil⟩, ht⟩
  rw [exec_config] at ht
  cases ht
  exact ⟨quiescent.configured c, out_nil⟩

end Sys2Proof.Machine
end
